-- ==== Sys2Proof/Word.lean ====
section
/-! DEFINITION. The word types of the three serial links: bytes, two-byte words, and the three sets that the
manual lays out as bits of a byte or word (R187). -/

namespace Sys2Proof

/-- One byte of a host frame or of a crane or car telegram. -/
abbrev Byte := BitVec 8

/-- A two-byte field that the manual compares bit by bit (the attribute, a hold filter's argument and mask). -/
abbrev Half := BitVec 16

/-- A set of the eight fault kinds, or of the eight cranes: bit n stands for kind or crane n (R187). -/
abbrev EightSet := BitVec 8

/-- A load class set: bit n stands for class n (R187). -/
abbrev ClassSet := BitVec 16

/-- A set of the ten alerts: bits 0 to 9 as R187 numbers them. Bits 10 to 15 of the two bytes name no alert and
are never held. -/
abbrev AlertSet := BitVec 10

end Sys2Proof
end

