-- ==== Sys2Proof/Config.lean ====
section
/-! DEFINITION. What the part fixes once (sizes, rooms, limits of Chapters 1 to 9), and the one value that the
manual leaves open. -/

namespace Sys2Proof.Config

/-- Job records of the Job Table (R1, Section 0.3). -/
def jobRecords : Nat := 512

/-- A host post is taken only while the FREE count is greater than this (R5). -/
def reservedRecords : Nat := 32

/-- Slot records over all configured aisles (R30, R31). -/
def maxSlotRecords : Nat := 65536

/-- Requests the request list has room for (R169). -/
def requestRoom : Nat := 8

/-- The greatest value of a counter (R147). -/
def counterMax : Nat := 16777215

/-- h used for store choice when no crane link is UP, milliseconds (R40). -/
def defaultH : Nat := 400

/-- v used for store choice when no crane link is UP, milliseconds (R40). -/
def defaultV : Nat := 900

/-- The ceiling of the age credit (R67). -/
def ageCreditCeiling : Nat := 30000

/-- The ceiling of the per-pallet time T1 (R66). -/
def pricedTimeCeiling : Nat := 999999

/-- The period of the introduction timer, milliseconds (R121). -/
def introductionPeriod : Nat := 5000

/-- The settling period of the HOLD input, milliseconds (R60). -/
def settlingPeriod : Nat := 200

/-- FREE VALUE (assumption 7). What QUERY CAR's two-byte car job timer field shows once the timer stands above
65,535 whole seconds: R190 gives the field two bytes, and no rule says whether the reading saturates or wraps.
Nothing constrains it. -/
opaque longTimerReading : Nat → Nat

end Sys2Proof.Config
end

