-- ==== Sys2Proof/Syntax.lean ====
section
/-! DEFINITION. The commands of the controller: one constructor for each row of spec/opcode_table.json.

A host request carries its request number and its body, the bytes between the request number and the check value
(R186, R188): the body is the operand, so that a body of the wrong length can be sent (R170). A crane or car
telegram carries the line and the fields of its body in the order of R189, one byte each unless said. A timer
expiry, a line event or a pin event carries what it happens to. -/

namespace Sys2Proof

/-- The level of the HOLD input (R60). -/
inductive HoldLevel where
  | released
  | asserted
  deriving DecidableEq, Repr

/-- A telegram line: one of the eight crane lines, or the car line. -/
inductive LineId where
  | crane (c : Fin 8)
  | car
  deriving DecidableEq, Repr

/-- The four counters of a crane line, in two pairs (R147). -/
inductive CounterId where
  | a0
  | b0
  | a1
  | b1
  deriving DecidableEq, Repr

/-- The commands. -/
inductive Instr where
  /-- Power is applied, with the HOLD input standing at `level` (R184, R78). -/
  | powerOn (level : HoldLevel)
  /-- Bytes arrive on the host link, no two of them more than 20 ms apart (R168). -/
  | hostFrameReceived (bytes : List Byte)
  /-- More than 20 ms have passed since the last byte of an unfinished host frame (R168). -/
  | hostFrameGapTimeout
  /-- A request whose code names no request comes to its turn (R170). -/
  | unknownRequestCode (code number : Byte) (body : List Byte)
  | postJob (number : Byte) (body : List Byte)
  | postBatch (number : Byte) (body : List Byte)
  | amendJob (number : Byte) (body : List Byte)
  | stage (number : Byte) (body : List Byte)
  | withdrawJob (number : Byte) (body : List Byte)
  | queryJob (number : Byte) (body : List Byte)
  | nextDone (number : Byte) (body : List Byte)
  | retireJob (number : Byte) (body : List Byte)
  | resolveJob (number : Byte) (body : List Byte)
  | setAisle (number : Byte) (body : List Byte)
  | loadSlots (number : Byte) (body : List Byte)
  | setSlot (number : Byte) (body : List Byte)
  | querySlot (number : Byte) (body : List Byte)
  | setHoldFilter (number : Byte) (body : List Byte)
  | setWeights (number : Byte) (body : List Byte)
  | queryDispatch (number : Byte) (body : List Byte)
  | openGroup (number : Byte) (body : List Byte)
  | closeGroup (number : Byte) (body : List Byte)
  | skipRank (number : Byte) (body : List Byte)
  | queryGroup (number : Byte) (body : List Byte)
  | setAisleEnable (number : Byte) (body : List Byte)
  | queryAisle (number : Byte) (body : List Byte)
  | setCar (number : Byte) (body : List Byte)
  | queryCar (number : Byte) (body : List Byte)
  | restartCarLine (number : Byte) (body : List Byte)
  | setLines (number : Byte) (body : List Byte)
  | restartLine (number : Byte) (body : List Byte)
  | setCrane (number : Byte) (body : List Byte)
  | clearFaults (number : Byte) (body : List Byte)
  | queryCrane (number : Byte) (body : List Byte)
  | setCounters (number : Byte) (body : List Byte)
  | readCounters (number : Byte) (body : List Byte)
  | readAlerts (number : Byte) (body : List Byte)
  | clearAlerts (number : Byte) (body : List Byte)
  | setAlertMask (number : Byte) (body : List Byte)
  | start (number : Byte) (body : List Byte)
  | halt (number : Byte) (body : List Byte)
  | resume (number : Byte) (body : List Byte)
  | resetController (number : Byte) (body : List Byte)
  /-- The reset asked for by an answered RESET CONTROLLER takes effect (R185). -/
  | resetTakesEffect
  /-- PAGE with the base bit: its more flag and its eight content bytes, the first byte highest (R121, R189). -/
  | basePage (crane : Fin 8) (more : Bool) (content : BitVec 64)
  /-- PAGE with the next bit: its toggle, its more flag and its eight content bytes (R122, R189). -/
  | nextPage (crane : Fin 8) (toggle more : Bool) (content : BitVec 64)
  | introductionTimerExpiry (crane : Fin 8)
  | orderAck (crane : Fin 8) (trip : Byte)
  | orderNak (crane : Fin 8) (trip reason : Byte)
  | status (crane : Fin 8) (mode aisle bay level flags faults trip leg : Byte)
  | legDone (crane : Fin 8) (trip leg outcome position : Byte)
  | cancelAnswer (crane : Fin 8) (trip leg verdict : Byte)
  /-- Bytes arrive on a telegram line, no two of them more than 20 ms apart (R115). -/
  | telegramDiscarded (line : LineId) (bytes : List Byte)
  /-- More than 20 ms have passed since the last byte of an unfinished telegram (R115). -/
  | telegramGapTimeout (line : LineId)
  | answerTimerExpiry (crane : Fin 8)
  | pollIntervalExpiry (crane : Fin 8)
  | carAck (order : Byte)
  | carNak (order reason : Byte)
  | phase (order phase : Byte)
  | carStatus (mode position fault order lastPhase : Byte)
  | carAnswerTimerExpiry
  | carPollIntervalExpiry
  | carJobTimeout
  /-- The HOLD input changes to `level` (R60). -/
  | holdInputChange (level : HoldLevel)
  | holdSettlingExpiry
  | dispatchClockTick
  /-- Group number `group` + 1 (groups are numbered 1 to 16, R79). -/
  | stallLimitReached (group : Fin 16)
  | counterOverflow (crane : Fin 8) (counter : CounterId)
  | dispatchPass
  deriving DecidableEq, Repr

end Sys2Proof
end

