-- ==== Sys2Proof/Machine/Types.lean ====
section
/-! DEFINITION. The named values of the manual (R187's code list) and the records that the blocks hold, as plain
data: no record holds a function. -/

namespace Sys2Proof.Machine

/-- The run phases (R180). -/
inductive Phase where
  | loading
  | running
  | halted
  deriving DecidableEq, Repr

/-- What a job does (R1). -/
inductive JobKind where
  | store
  | retrieve
  | relocate
  deriving DecidableEq, Repr

/-- Where a job stands (R1). A FREE record has every other field absent (R11) and is not listed, so FREE is no
value of a listed record's state. -/
inductive JobState where
  | pending
  | ready
  | ordered
  | active
  | stranded
  | done
  deriving DecidableEq, Repr

/-- Why a PENDING job may not yet be done (R1). -/
inductive PendingReason where
  | notStaged
  | prerequisite
  | frontBlocked
  | rearPending
  | noRoom
  | noRecord
  | slotBlocked
  deriving DecidableEq, Repr

inductive SlotChoice where
  | explicit
  | chosen
  deriving DecidableEq, Repr

/-- How a job ended (R1). -/
inductive JobOutcome where
  | completed
  | withdrawn
  | slotOccupied
  | slotEmpty
  | targetOccupied
  | loadRefused
  deriving DecidableEq, Repr

inductive Side where
  | left
  | right
  deriving DecidableEq, Repr

inductive Depth where
  | front
  | rear
  deriving DecidableEq, Repr

/-- A slot within its aisle. -/
structure SlotPos where
  side : Side
  level : Nat
  bay : Nat
  depth : Depth
  deriving DecidableEq, Repr

/-- The condition of a slot (R32). -/
inductive Condition where
  | empty
  | occupied
  | blocked
  deriving DecidableEq, Repr

/-- The kind of a reservation: IN or OUT (R34). -/
inductive ResKind where
  | into
  | outOf
  deriving DecidableEq, Repr

/-- The claim of one job on a slot: its kind and the record index of the job (R32). -/
structure Reservation where
  kind : ResKind
  job : Nat
  deriving DecidableEq, Repr

/-- A slot record (R32). -/
structure Slot where
  condition : Condition
  slotClass : Nat
  pallet : Option Nat
  reservation : Option Reservation
  unverified : Bool
  deriving DecidableEq, Repr

/-- The geometry record of a configured aisle (R30). -/
structure Geometry where
  levels : Nat
  bays : Nat
  depths : Nat
  defaultClass : Nat
  deriving DecidableEq, Repr

/-- The record of one aisle: its geometry (R30; absent while configured is NO) and the fields of R94. -/
structure Aisle where
  geometry : Option Geometry
  enabled : Option Bool
  lock : Option (Fin 8)
  occupied : Nat
  free : Nat
  deriving DecidableEq, Repr

/-- The trip that holds a job (R1). -/
structure Assignment where
  crane : Fin 8
  trip : Nat
  leg : Nat
  deriving DecidableEq, Repr

/-- The sequence group of a RETRIEVE and its rank (R1): group number `group` + 1. -/
structure GroupRank where
  group : Fin 16
  rank : Nat
  deriving DecidableEq, Repr

/-- A job record that is not FREE (R1, R2: an absent field is `none`). -/
structure Job where
  tag : Nat
  kind : JobKind
  state : JobState
  reason : Option PendingReason
  aisle : Fin 16
  slot : Option SlotPos
  target : Option SlotPos
  choice : Option SlotChoice
  loadClass : Nat
  attr : Half
  priority : Nat
  age : Nat
  staged : Option Bool
  group : Option GroupRank
  link : Option Nat
  assignment : Option Assignment
  withdrawRequested : Bool
  excluded : EightSet
  refusals : Nat
  lastScore : Option Int
  outcome : Option JobOutcome
  deriving DecidableEq, Repr

/-- The fields that only an OPEN group holds (R79). -/
structure OpenGroup where
  next : Nat
  window : Nat
  ahead : List Nat
  stallLimit : Nat
  stallTimer : Nat
  stallReported : Bool
  deriving DecidableEq, Repr

/-- A sequence group record (R79): CLOSED exactly when `opened` is absent. -/
structure Group where
  members : Nat
  opened : Option OpenGroup
  deriving DecidableEq, Repr

/-- A hold filter entry (R58). -/
structure HoldFilter where
  enabled : Bool
  argument : Half
  mask : Half
  deriving DecidableEq, Repr

/-- The dispatch weights (R76). -/
structure Weights where
  wa : Nat
  wp : Nat
  wh : Nat
  u : Nat
  dual : Bool
  deriving DecidableEq, Repr

/-- The Dispatcher's own state (R76, R58, R60, R61), and the count of the triggers it has been told of and has not
yet made a pass for (R70). -/
structure Dispatcher where
  weights : Weights
  filters : Vector HoldFilter 8
  held : Bool
  holdInput : HoldLevel
  actedOn : HoldLevel
  settling : Bool
  passesDue : Nat
  deriving DecidableEq, Repr

/-- A link state (R117; the car has no INTRODUCING, R102). -/
inductive LinkState where
  | absent
  | introducing
  | up
  | lost
  deriving DecidableEq, Repr

inductive CraneMode where
  | auto
  | manual
  | stopped
  deriving DecidableEq, Repr

/-- Where a crane stands (R136). -/
inductive CraneAisle where
  | inAisle (a : Fin 16)
  | onCar
  | unknown
  deriving DecidableEq, Repr

/-- What a crane holds (R136, R153). -/
inductive WorkState where
  | idle
  | ordering
  | busy
  deriving DecidableEq, Repr

/-- The stages of a transfer (R153, R154). -/
inductive TransferStage where
  | toHead
  | queued
  | serving
  | done
  deriving DecidableEq, Repr

/-- The aisle change a trip needs (R153). -/
structure Transfer where
  fromAisle : Option (Fin 16)
  toAisle : Fin 16
  stage : TransferStage
  deriving DecidableEq, Repr

/-- One leg of a trip with its three marks (R153). -/
structure Leg where
  index : Nat
  job : Nat
  finished : Bool
  cancelWanted : Bool
  cancelSent : Bool
  deriving DecidableEq, Repr

/-- A trip record (R153). `accepted` is the exchange state (ACCEPTED against AWAITING_ACK); `orderSent` tells
whether the trip's ORDER has been sent at least once, which R119, R131 and R155 ask for. -/
structure Trip where
  number : Nat
  legs : List Leg
  transfer : Option Transfer
  accepted : Bool
  orderSent : Bool
  deriving DecidableEq, Repr

/-- One leg as an ORDER carries it (R125, R189). -/
structure OrderLeg where
  index : Nat
  kind : JobKind
  aisle : Fin 16
  slot : Option SlotPos
  target : Option SlotPos
  deriving DecidableEq, Repr

/-- The telegrams the controller sends to a crane (R189). -/
inductive Telegram where
  | order (trip : Nat) (toAisle : Option (Fin 16)) (legs : List OrderLeg)
  | cancel (trip leg : Nat)
  | poll
  | pageAck (toggle : Bool)
  | doneAck (trip leg : Nat)
  | restart
  deriving DecidableEq, Repr

/-- What a crane line exchange is about (R118, R131, R132). -/
inductive ExchangeKind where
  | order (trip : Nat)
  | cancel (trip leg : Nat)
  | cancelAll (trip : Nat)
  | poll
  deriving DecidableEq, Repr

/-- The exchange awaiting an answer: its telegram, its resend count, and the period its answer timer runs with
(R118, R133). -/
structure Exchange where
  kind : ExchangeKind
  telegram : Telegram
  resends : Nat
  period : Nat
  deriving DecidableEq, Repr

/-- The crane context (R136). -/
structure Context where
  protocolLevel : Option Nat
  serial : Option Nat
  name : Option (BitVec 64)
  h : Option Nat
  v : Option Nat
  a : Option Nat
  fF : Option Nat
  fR : Option Nat
  forkDepth : Option Nat
  dualCapable : Option Bool
  classes : Option ClassSet
  clamped : Bool
  mode : CraneMode
  aisle : CraneAisle
  position : Option (Nat × Nat)
  referenced : Bool
  atHead : Bool
  tripInHand : Nat
  legInProgress : Nat
  active : EightSet
  latched : EightSet
  detect : EightSet
  latch : EightSet
  conflict : Bool
  nakFault : Bool
  disabled : Bool
  drained : Bool
  work : WorkState
  deriving DecidableEq, Repr

inductive CounterMode where
  | wrap
  | saturate
  deriving DecidableEq, Repr

/-- One counter (R147). -/
structure Counter where
  select : Nat
  mode : CounterMode
  drainEnable : Bool
  value : Nat
  overflow : Bool
  deriving DecidableEq, Repr

/-- The four counters of a line and the combine flags of its two pairs (R147). -/
structure Counters where
  a0 : Counter
  b0 : Counter
  a1 : Counter
  b1 : Counter
  combine0 : Bool
  combine1 : Bool
  deriving DecidableEq, Repr

/-- A Crane Line Controller (Section 0.3, Chapters 6 to 8). `gathered` holds the bytes of an unfinished telegram
(R115); `silence` the period its silence timer runs with (R120, R133); `reconcileDue` is the Aisle Table's mark for
the crane (R99); `strandedCheck` the mark of R163; `sent` records every telegram sent to the crane, oldest first. -/
structure Line where
  link : LinkState
  gathered : List Byte
  pagesTaken : Nat
  lastToggle : Bool
  introTimer : Option Nat
  exchange : Option Exchange
  silence : Nat
  stale : List Nat
  lastTrip : Nat
  notReady : Bool
  reconcileDue : Bool
  strandedCheck : Bool
  ctx : Context
  trip : Option Trip
  counters : Counters
  sent : List Telegram
  deriving DecidableEq, Repr

inductive CarMode where
  | auto
  | manual
  deriving DecidableEq, Repr

/-- The car work states (Section 5.6). -/
inductive CarWork where
  | idle
  | ordering
  | fetching
  | boarding
  | carrying
  | alighting
  deriving DecidableEq, Repr

/-- The phases a car reports (R108). -/
inductive CarPhase where
  | dockedFrom
  | boarded
  | dockedTo
  | alighted
  deriving DecidableEq, Repr

/-- The reasons of a CAR NAK (R102). -/
inductive CarRefusal where
  | busy
  | fault
  | manual
  deriving DecidableEq, Repr

/-- An entry of the car queue (R104). -/
structure CarRequest where
  crane : Fin 8
  fromAisle : Fin 16
  toAisle : Fin 16
  deriving DecidableEq, Repr

/-- The car's current request (R105, R113). -/
structure CurrentRequest where
  order : Nat
  crane : Fin 8
  fromAisle : Fin 16
  toAisle : Fin 16
  trip : Nat
  deriving DecidableEq, Repr

/-- The telegrams the controller sends to the car (R102, R189). -/
inductive CarTelegram where
  | order (number : Nat) (crane : Fin 8) (fromAisle toAisle : Fin 16)
  | poll
  | restart
  deriving DecidableEq, Repr

/-- The car line's exchange: a CAR ORDER or a POLL (R102). -/
structure CarExchange where
  isOrder : Bool
  telegram : CarTelegram
  resends : Nat
  period : Nat
  deriving DecidableEq, Repr

/-- The Car Line Controller (Section 0.3, Chapter 5). `orderWaiting` tells that the current request's CAR ORDER
has yet to be sent because another exchange is open (R102); `jobTimer` is the running car job timer in tenths of a
second (R109), absent while it is stopped; `sent` records every telegram sent to the car, oldest first. -/
structure Car where
  link : LinkState
  gathered : List Byte
  exchange : Option CarExchange
  silence : Nat
  mode : CarMode
  position : Option (Fin 16)
  fault : Bool
  orderInHand : Nat
  notReady : Bool
  lastRefusal : Option CarRefusal
  overdue : Bool
  jobTimer : Option Nat
  work : CarWork
  orderNumber : Nat
  current : Option CurrentRequest
  orderWaiting : Bool
  queue : List CarRequest
  configured : Bool
  c0 : Nat
  c1 : Nat
  timeout : Nat
  sent : List CarTelegram
  deriving DecidableEq, Repr

/-- A taken request frame (R168, R169). -/
structure Request where
  code : Byte
  number : Byte
  body : List Byte
  deriving DecidableEq, Repr

/-- The reply statuses (R172). -/
inductive Status where
  | ok
  | partly
  | none
  | unknownRequest
  | badField
  | wrongPhase
  | unknownTag
  | duplicateTag
  | tableFull
  | notAllowed
  | slotConflict
  | slotReserved
  | groupClosed
  | duplicateRank
  | geometryTooLarge
  | noSuchAisle
  deriving DecidableEq, Repr

/-- A reply (R170, R186). -/
structure Reply where
  code : Byte
  number : Byte
  status : Status
  body : List Byte
  deriving DecidableEq, Repr

/-- The ten alerts, in the order of R187's bits. -/
inductive Alert where
  | jobDone
  | stranded
  | craneLost
  | craneFault
  | car
  | service
  | noRoom
  | seqStall
  | hold
  | intro
  deriving DecidableEq, Repr

/-- The Host Link Port (Chapter 9). `gathered` holds the bytes of an unfinished frame (R168); `replies` the replies
formed, in order (R170). -/
structure HostPort where
  gathered : List Byte
  requests : List Request
  replies : List Reply
  alerts : AlertSet
  mask : AlertSet
  conditions : AlertSet
  attention : Bool
  deriving DecidableEq, Repr

/-- The dispatch clock (R183). -/
structure Clock where
  seconds : Nat
  tenths : Nat
  deriving DecidableEq, Repr

/-- What SET LINES sets for all nine lines (R133). -/
structure LineSettings where
  tack : Nat
  resendLimit : Nat
  pollInterval : Nat
  deriving DecidableEq, Repr

/-- What one event gathers on its way and settles at its end: the counter inputs that occurred (R148), the job of
the event that is to be evaluated before the collected ones (R44), the collected jobs (R43), and the cranes whose
line works out eligibility at the end (R138). Empty between events. -/
structure Scratch where
  inputs : List (Fin 8 × Nat)
  own : List Nat
  collected : List Nat
  told : List (Fin 8)
  deriving DecidableEq, Repr

end Sys2Proof.Machine
end

