-- ==== Sys2Proof/Machine/Operands.lean ====
section
/-! DEFINITION. Operand forms: the fields of request and telegram bodies as Chapter 11 lays them out (R186 to R190),
the code list of R187, the request table of R188 with the admission of Section 9.3, the framing and the check value. -/

namespace Sys2Proof.Machine

/-! ## Numbers of one to four bytes, high byte first (R187) -/

/-- The byte at place `i` of a body, 0 beyond its end. -/
def byteAt (body : List Byte) (i : Nat) : Nat :=
  ((body.drop i).headD 0).toNat

/-- The two-byte number at place `i`. -/
def wordAt (body : List Byte) (i : Nat) : Nat :=
  byteAt body i * 256 + byteAt body (i + 1)

/-- The three-byte number at place `i`. -/
def tripleAt (body : List Byte) (i : Nat) : Nat :=
  wordAt body i * 256 + byteAt body (i + 2)

/-- The four-byte number at place `i`. -/
def longAt (body : List Byte) (i : Nat) : Nat :=
  wordAt body i * 65536 + wordAt body (i + 2)

def put1 (n : Nat) : List Byte := [BitVec.ofNat 8 n]

def put2 (n : Nat) : List Byte := put1 (n / 256) ++ put1 n

def put3 (n : Nat) : List Byte := put1 (n / 65536) ++ put2 n

def put4 (n : Nat) : List Byte := put2 (n / 65536) ++ put2 n

/-- A four-byte signed number in two's complement (R187). -/
def putSigned (n : Int) : List Byte := put4 (BitVec.ofInt 32 n).toNat

/-- NO or YES, CLEAR or SET: 00h or 01h (R187). -/
def putFlag (b : Bool) : List Byte := put1 b.toNat

/-- A field that may be absent: its presence byte, then the field, or `width` bytes of 0 (R187). -/
def putOption {α : Type} (width : Nat) (put : α → List Byte) : Option α → List Byte
  | some x => put1 1 ++ put x
  | none => put1 0 ++ List.replicate width 0

/-- A field carrying NO or YES (R187). -/
def readFlag (n : Nat) : Option Bool :=
  if n = 0 then some false else if n = 1 then some true else none

/-! ## The check value and the framing (R186) -/

/-- One bit of the CRC-16 with the generator 1021h. -/
def crcBit (r : BitVec 16) : BitVec 16 :=
  if r.msb then (r <<< 1) ^^^ 0x1021#16 else r <<< 1

/-- One byte of the CRC, its most significant bit first. -/
def crcByte (r : BitVec 16) (b : Byte) : BitVec 16 :=
  crcBit (crcBit (crcBit (crcBit (crcBit (crcBit (crcBit (crcBit (r ^^^ (b.setWidth 16 <<< 8)))))))))

/-- The check value: the register starts at FFFFh and is sent without inversion (R186). -/
def crc16 (bytes : List Byte) : BitVec 16 :=
  bytes.foldl crcByte 0xFFFF#16

/-- A whole frame or telegram round its content: start byte, length byte, content, check value (R186). -/
def frameOf (content : List Byte) : List Byte :=
  let counted := put1 content.length ++ content
  put1 2 ++ counted ++ put2 (crc16 counted).toNat

/-- One byte at a receiver: what it has gathered then, and the whole frame (from its length byte on) when this byte
was its last. Between frames a byte other than 02h is passed over (R115, R168); the receiver expects as many bytes
as the length byte says and two check bytes (R186). -/
def gatherByte (gathered : List Byte) (b : Byte) : List Byte × Option (List Byte) :=
  match gathered with
  | [] => (if b = 2 then [b] else [], none)
  | _ :: rest =>
    match rest ++ [b] with
    | [] => (gathered, none)
    | len :: got =>
      if got.length = len.toNat + 2 then ([], some (len :: got)) else (gathered ++ [b], none)

/-- The content of a gathered frame when its length byte lies within its limits and its check value agrees. -/
def checkFrame (low high : Nat) : List Byte → Option (List Byte)
  | [] => none
  | len :: got =>
    let content := got.take len.toNat
    if low ≤ len.toNat ∧ len.toNat ≤ high ∧ got.drop len.toNat = put2 (crc16 (len :: content)).toNat
    then some content else none

/-! ## The packed slot address (R187) -/

/-- A slot as the packed slot address names it. -/
structure SlotAddress where
  aisle : Fin 16
  pos : SlotPos
  deriving DecidableEq, Repr

/-- Bits 23 to 20 the aisle, 19 the side, 18 the depth, 17 to 13 the level, 12 to 6 the bay; 5 to 0 not read. -/
def readSlotAddress (n : Nat) : SlotAddress :=
  { aisle := Fin.ofNat 16 (n / 1048576)
    pos :=
      { side := if n / 524288 % 2 = 0 then .left else .right
        depth := if n / 262144 % 2 = 0 then .front else .rear
        level := n / 8192 % 32
        bay := n / 64 % 128 } }

/-- The number by which the Slot Map orders its records: the packed slot address without its spare bits. -/
def slotKey (a : Fin 16) (p : SlotPos) : Nat :=
  a.val * 16384 + (match p.side with | .left => 0 | .right => 1) * 8192 +
    (match p.depth with | .front => 0 | .rear => 1) * 4096 + p.level % 32 * 128 + p.bay % 128

def putSlotAddress (a : Fin 16) (p : SlotPos) : List Byte := put3 (slotKey a p * 64)

/-! ## The code list (R187) -/

def readKind (n : Nat) : Option JobKind :=
  if n = 1 then some .store else if n = 2 then some .retrieve else if n = 3 then some .relocate else none

def kindCode : JobKind → Nat
  | .store => 1
  | .retrieve => 2
  | .relocate => 3

def stateCode : JobState → Nat
  | .pending => 1
  | .ready => 2
  | .ordered => 3
  | .active => 4
  | .stranded => 5
  | .done => 6

def reasonCode : PendingReason → Nat
  | .notStaged => 1
  | .prerequisite => 2
  | .frontBlocked => 3
  | .rearPending => 4
  | .noRoom => 5
  | .noRecord => 6
  | .slotBlocked => 7

def outcomeCode : JobOutcome → Nat
  | .completed => 1
  | .withdrawn => 2
  | .slotOccupied => 3
  | .slotEmpty => 4
  | .targetOccupied => 5
  | .loadRefused => 6

def readCondition (n : Nat) : Option Condition :=
  if n = 0 then some .empty else if n = 1 then some .occupied else if n = 2 then some .blocked else none

def conditionCode : Condition → Nat
  | .empty => 0
  | .occupied => 1
  | .blocked => 2

def resKindCode : ResKind → Nat
  | .into => 1
  | .outOf => 2

def choiceCode : SlotChoice → Nat
  | .explicit => 0
  | .chosen => 1

/-- The verdicts of RESOLVE JOB. -/
inductive Verdict where
  | completed
  | notMoved
  | withdrawn
  deriving DecidableEq, Repr

def readVerdict (n : Nat) : Option Verdict :=
  if n = 1 then some .completed else if n = 2 then some .notMoved else if n = 3 then some .withdrawn else none

def readCraneMode (n : Nat) : Option CraneMode :=
  if n = 0 then some .auto else if n = 1 then some .manual else if n = 2 then some .stopped else none

def craneModeCode : CraneMode → Nat
  | .auto => 0
  | .manual => 1
  | .stopped => 2

def readCarMode (n : Nat) : Option CarMode :=
  if n = 0 then some .auto else if n = 1 then some .manual else none

def carModeCode : CarMode → Nat
  | .auto => 0
  | .manual => 1

def readCraneAisle (n : Nat) : Option CraneAisle :=
  if n < 16 then some (.inAisle (Fin.ofNat 16 n)) else if n = 0x80 then some .onCar
  else if n = 0x81 then some .unknown else none

def craneAisleCode : CraneAisle → Nat
  | .inAisle a => a.val
  | .onCar => 0x80
  | .unknown => 0x81

/-- The reasons of an ORDER NAK (R128). -/
inductive NakReason where
  | manual
  | fault
  | busy
  | cannot
  deriving DecidableEq, Repr

def readNakReason (n : Nat) : Option NakReason :=
  if n = 1 then some .manual else if n = 2 then some .fault else if n = 3 then some .busy
  else if n = 4 then some .cannot else none

def readCarRefusal (n : Nat) : Option CarRefusal :=
  if n = 1 then some .busy else if n = 2 then some .fault else if n = 3 then some .manual else none

def carRefusalCode : CarRefusal → Nat
  | .busy => 1
  | .fault => 2
  | .manual => 3

/-- A cancel verdict: TAKEN (`true`) or TOO_LATE (`false`). -/
def readCancelVerdict (n : Nat) : Option Bool :=
  if n = 1 then some true else if n = 2 then some false else none

def readCarPhase (n : Nat) : Option CarPhase :=
  if n = 1 then some .dockedFrom else if n = 2 then some .boarded else if n = 3 then some .dockedTo
  else if n = 4 then some .alighted else none

def readCounterMode (n : Nat) : Option CounterMode :=
  if n = 0 then some .wrap else if n = 1 then some .saturate else none

def counterModeCode : CounterMode → Nat
  | .wrap => 0
  | .saturate => 1

def linkCode : LinkState → Nat
  | .absent => 0
  | .introducing => 1
  | .up => 2
  | .lost => 3

def workCode : WorkState → Nat
  | .idle => 0
  | .ordering => 1
  | .busy => 2

def carWorkCode : CarWork → Nat
  | .idle => 0
  | .ordering => 1
  | .fetching => 2
  | .boarding => 3
  | .carrying => 4
  | .alighting => 5

def exchangeCode : ExchangeKind → Nat
  | .order _ => 1
  | .cancel _ _ => 2
  | .cancelAll _ => 3
  | .poll => 4

def stageCode : TransferStage → Nat
  | .toHead => 0
  | .queued => 1
  | .serving => 2
  | .done => 3

def phaseCode : Phase → Nat
  | .loading => 0
  | .running => 1
  | .halted => 2

def levelCode : HoldLevel → Nat
  | .released => 0
  | .asserted => 1

def lockCode : Option (Fin 8) → Nat
  | none => 0xFF
  | some c => c.val

def statusCode : Status → Nat
  | .ok => 0x00
  | .partly => 0x01
  | .none => 0x02
  | .unknownRequest => 0x10
  | .badField => 0x11
  | .wrongPhase => 0x12
  | .unknownTag => 0x13
  | .duplicateTag => 0x14
  | .tableFull => 0x15
  | .notAllowed => 0x16
  | .slotConflict => 0x17
  | .slotReserved => 0x18
  | .groupClosed => 0x19
  | .duplicateRank => 0x1A
  | .geometryTooLarge => 0x1B
  | .noSuchAisle => 0x1C

/-- The bit of an alert in an alert set (R187). -/
def alertBit : Alert → AlertSet
  | .jobDone => 1
  | .stranded => 2
  | .craneLost => 4
  | .craneFault => 8
  | .car => 16
  | .service => 32
  | .noRoom => 64
  | .seqStall => 128
  | .hold => 256
  | .intro => 512

/-- The bit of a crane in a set of cranes (R187). -/
def craneBit (c : Fin 8) : EightSet := 1 <<< c.val

/-- The POSITION kind in a set of fault kinds (R187, bit 3). -/
def positionKind : EightSet := 8

/-! ## The requests (R188) and their admission by phase (Section 9.3) -/

/-- One row of R188 with its row of the admission table: the body has `length` bytes, and `entry` more for each that
the byte at `countAt` counts. -/
structure RequestRow where
  code : Byte
  length : Nat
  entry : Nat
  countAt : Nat
  loading : Bool
  running : Bool
  halted : Bool
  deriving DecidableEq, Repr

/-- A request of fixed body length admitted in every phase. -/
def everyPhase (code : Byte) (length : Nat) : RequestRow :=
  ⟨code, length, 0, 0, true, true, true⟩

def requestTable : List RequestRow :=
  [ ⟨0x10, 14, 0, 0, false, true, true⟩
  , ⟨0x11, 1, 14, 0, false, true, true⟩
  , everyPhase 0x12 9
  , everyPhase 0x13 4
  , everyPhase 0x14 4
  , everyPhase 0x15 4
  , everyPhase 0x16 0
  , everyPhase 0x17 4
  , everyPhase 0x18 5
  , ⟨0x20, 5, 0, 0, true, false, false⟩
  , ⟨0x21, 2, 6, 1, true, false, false⟩
  , ⟨0x22, 6, 0, 0, false, true, true⟩
  , everyPhase 0x23 3
  , everyPhase 0x30 6
  , everyPhase 0x31 9
  , everyPhase 0x32 0
  , everyPhase 0x40 6
  , everyPhase 0x41 1
  , everyPhase 0x42 3
  , everyPhase 0x43 1
  , everyPhase 0x50 2
  , everyPhase 0x51 1
  , everyPhase 0x52 6
  , everyPhase 0x53 0
  , everyPhase 0x54 0
  , everyPhase 0x60 5
  , everyPhase 0x61 1
  , everyPhase 0x70 5
  , everyPhase 0x71 1
  , everyPhase 0x72 1
  , everyPhase 0x73 27
  , everyPhase 0x74 2
  , everyPhase 0x80 0
  , everyPhase 0x81 2
  , everyPhase 0x82 2
  , ⟨0x90, 0, 0, 0, true, false, false⟩
  , ⟨0x91, 0, 0, 0, false, true, false⟩
  , ⟨0x92, 0, 0, 0, false, false, true⟩
  , everyPhase 0x93 0 ]

/-- The row of a request code, absent for a code that names no request. -/
def requestRow (code : Byte) : Option RequestRow :=
  requestTable.find? (fun r => r.code == code)

/-- Step 3 of R170: the body has the length R188 gives for its code. -/
def lengthAgrees (code : Byte) (body : List Byte) : Bool :=
  match requestRow code with
  | none => false
  | some r => body.length == r.length + r.entry * (if r.entry = 0 then 0 else byteAt body r.countAt)

/-- The phase check of R171. -/
def admitted (code : Byte) (phase : Phase) : Bool :=
  match requestRow code with
  | none => false
  | some r =>
    match phase with
    | .loading => r.loading
    | .running => r.running
    | .halted => r.halted

/-! ## The job descriptor (Section 11.3) -/

/-- A job descriptor as it stands in a body. -/
structure Descriptor where
  tag : Nat
  kind : Nat
  choice : SlotChoice
  staged : Bool
  address : SlotAddress
  loadClass : Nat
  priority : Nat
  attr : Half
  group : Nat
  rank : Nat
  deriving DecidableEq, Repr

/-- The 14 bytes of a descriptor from place `i` on. -/
def readDescriptor (body : List Byte) (i : Nat) : Descriptor :=
  { tag := longAt body i
    kind := byteAt body (i + 4) % 4
    choice := if byteAt body (i + 4) / 4 % 2 = 0 then .explicit else .chosen
    staged := byteAt body (i + 4) / 8 % 2 = 1
    address := readSlotAddress (tripleAt body (i + 5))
    loadClass := byteAt body (i + 8) / 16
    priority := byteAt body (i + 8) % 8
    attr := BitVec.ofNat 16 (wordAt body (i + 9))
    group := byteAt body (i + 11)
    rank := wordAt body (i + 12) }

/-! ## Telegram bodies (R189) -/

/-- A STATUS whose coded fields are all in their code lists and whose bay, level and leg lie in range. -/
structure StatusReport where
  mode : CraneMode
  aisle : CraneAisle
  bay : Nat
  level : Nat
  referenced : Bool
  atHead : Bool
  faults : EightSet
  trip : Nat
  leg : Nat
  deriving DecidableEq, Repr

def readStatus (mode aisle bay level flags faults trip leg : Byte) : Option StatusReport :=
  match readCraneMode mode.toNat, readCraneAisle aisle.toNat with
  | some m, some a =>
    if bay.toNat ≤ 127 ∧ level.toNat ≤ 31 ∧ leg.toNat ≤ 2 then
      some
        { mode := m
          aisle := a
          bay := bay.toNat
          level := level.toNat
          referenced := flags.toNat % 2 = 1
          atHead := flags.toNat / 2 % 2 = 1
          faults := faults
          trip := trip.toNat
          leg := leg.toNat }
    else none
  | _, _ => none

/-- A CAR STATUS whose coded fields are all in their code lists. The last phase is absent for code 0. -/
structure CarReport where
  mode : CarMode
  position : Fin 16
  fault : Bool
  order : Nat
  lastPhase : Option CarPhase
  deriving DecidableEq, Repr

/-- The fields of a CAR STATUS, when each is in its range. R102 and R189 give the aisle position 0 to 15 and do not say
what a greater one does: the telegram is discarded (DEDUCED, assumption 34). -/
def readCarStatus (mode position fault order lastPhase : Byte) : Option CarReport :=
  match readCarMode mode.toNat, readFlag fault.toNat with
  | some m, some f =>
    if position.toNat ≤ 15 ∧ lastPhase.toNat ≤ 4 then
      some ⟨m, Fin.ofNat 16 position.toNat, f, order.toNat, readCarPhase lastPhase.toNat⟩
    else none
  | _, _ => none

/-- Byte `i` (0 to 7) of the eight content bytes of a PAGE. -/
def pageByte (content : BitVec 64) (i : Nat) : Nat :=
  content.toNat / 256 ^ (7 - i) % 256

/-- The two-byte number at place `i` of the content of a PAGE. -/
def pageWord (content : BitVec 64) (i : Nat) : Nat :=
  pageByte content i * 256 + pageByte content (i + 1)

/-- The eight content bytes of a PAGE as one number, the first byte highest. -/
def pageContent (bytes : List Byte) : BitVec 64 :=
  BitVec.ofNat 64 (bytes.foldl (fun n b => n * 256 + b.toNat) 0)

/-- How a crane reports that a leg ended, once its outcome has been judged against the kind of the job (R156): an
outcome the kind allows, CANCELLED, ABORTED with either load position, or an outcome that is not allowed. -/
inductive LegReport where
  | ended (o : JobOutcome)
  | cancelled
  | notMoved
  | onForks
  | improper
  deriving DecidableEq, Repr

/-- R156, with the code list of R187: an unlisted outcome, the code of WITHDRAWN, and an ABORTED whose load position
is neither NOT_MOVED nor ON_FORKS are not allowed. -/
def legReport (kind : JobKind) (outcome position : Nat) : LegReport :=
  if outcome = 1 then .ended .completed
  else if outcome = 3 ∧ kind = .store then .ended .slotOccupied
  else if outcome = 4 ∧ (kind = .retrieve ∨ kind = .relocate) then .ended .slotEmpty
  else if outcome = 5 ∧ kind = .relocate then .ended .targetOccupied
  else if outcome = 6 ∧ kind = .store then .ended .loadRefused
  else if outcome = 7 then .cancelled
  else if outcome = 8 ∧ position = 1 then .notMoved
  else if outcome = 8 ∧ position = 2 then .onForks
  else .improper

/-- The leg of an ORDER: leg index, kind, slot, and the target slot, sent as 0 unless the job is a RELOCATE. -/
def putOrderLeg (l : OrderLeg) : List Byte :=
  put1 l.index ++ put1 (kindCode l.kind) ++
    (match l.slot with | some p => putSlotAddress l.aisle p | none => put3 0) ++
    (match l.target with | some p => putSlotAddress l.aisle p | none => put3 0)

/-- The content of a telegram to a crane: its code and its body (R189). -/
def telegramContent : Telegram → List Byte
  | .order trip toAisle legs =>
    put1 0x21 ++ put1 trip ++ put1 (match toAisle with | some a => a.val | none => 0xFF) ++ put1 legs.length ++
      legs.flatMap putOrderLeg
  | .cancel trip leg => put1 0x22 ++ put1 trip ++ put1 leg
  | .poll => put1 0x23
  | .pageAck toggle => put1 0x24 ++ putFlag toggle
  | .doneAck trip leg => put1 0x25 ++ put1 trip ++ put1 leg
  | .restart => put1 0x26

/-- The content of a telegram to the car (R189). -/
def carTelegramContent : CarTelegram → List Byte
  | .order n c x y => put1 0x61 ++ put1 n ++ put1 c.val ++ put1 x.val ++ put1 y.val
  | .poll => put1 0x63
  | .restart => put1 0x66

/-- The bytes of a reply frame (R186). -/
def replyFrame (r : Reply) : List Byte :=
  frameOf ([r.code, r.number] ++ put1 (statusCode r.status) ++ r.body)

/-- Brings a value into a range (Section 0.6). -/
def clampTo (low high n : Nat) : Nat := max low (min high n)

end Sys2Proof.Machine
end

