-- ==== Sys2Proof/Machine/State.lean ====
section
/-! DEFINITION. The state of the controller as plain data, what may stop a step, and the state after power-on. -/

namespace Sys2Proof.Machine

/-- Why the machine could stop with a fault. The manual names no event that stops the controller: every request is
answered, every telegram taken, ignored or discarded, so there is no fault to name, and no command raises one. That
is safe: no behaviour of the part is cut off. -/
inductive Fault : Type
  deriving DecidableEq, Repr

/-- Why a command could be refused by the model. -/
inductive Refusal where
  /-- Raised by an arm of `exec` whose command has no meaning yet. Safe: the run stops there. No arm raises it. -/
  | notModelled (mnemonic : String)
  deriving DecidableEq, Repr

/-- The controller. `pending` is the queue of the commands that wait (assumption 1); `jobs` lists the records that
are not FREE, in rising index (R1, R11); `done` is the DONE list (R10); `slots` lists the slot records that differ
from a fresh record of their aisle (R31), in rising slot key; `resetDue` tells that a RESET CONTROLLER has been
answered and has yet to take effect (R185); `scratch` is empty between events. -/
structure State where
  pending : List Instr
  phase : Phase
  clock : Clock
  resetDue : Bool
  host : HostPort
  jobs : List (Nat × Job)
  done : List Nat
  freeCount : Nat
  aisles : Vector Aisle 16
  slots : List (Nat × Slot)
  disp : Dispatcher
  groups : Vector Group 16
  car : Car
  lines : Vector Line 8
  settings : LineSettings
  scratch : Scratch
  deriving DecidableEq, Repr

/-- Nothing gathered. -/
def Scratch.empty : Scratch := ⟨[], [], [], []⟩

/-- The Host Link Port after power-on (R179): the mask holds all ten alerts. -/
def HostPort.powerOn : HostPort := ⟨[], [], [], 0, BitVec.allOnes 10, 0, false⟩

/-- An aisle that is not configured (R54, R94). -/
def Aisle.powerOn : Aisle := ⟨none, none, none, 0, 0⟩

/-- A hold filter entry after power-on (R78). -/
def HoldFilter.powerOn : HoldFilter := ⟨false, 0, 0⟩

/-- The weights after power-on (R76). -/
def Weights.powerOn : Weights := ⟨10, 2000, 5000, 30000, true⟩

/-- The Dispatcher after power-on, the HOLD input standing at `level` (R78). -/
def Dispatcher.powerOn (level : HoldLevel) : Dispatcher :=
  { weights := .powerOn
    filters := Vector.replicate 8 .powerOn
    held := level = .asserted
    holdInput := level
    actedOn := level
    settling := false
    passesDue := 0 }

/-- A CLOSED group without members (R93). -/
def Group.powerOn : Group := ⟨0, none⟩

/-- The line settings after power-on (R135). -/
def LineSettings.powerOn : LineSettings := ⟨250, 3, 1000⟩

/-- The car after power-on (R114). -/
def Car.powerOn : Car :=
  { link := .absent
    gathered := []
    exchange := none
    silence := 1000
    mode := .manual
    position := none
    fault := false
    orderInHand := 0
    notReady := false
    lastRefusal := none
    overdue := false
    jobTimer := none
    work := .idle
    orderNumber := 0
    current := none
    orderWaiting := false
    queue := []
    configured := false
    c0 := 0
    c1 := 0
    timeout := 180
    sent := [] }

/-- A crane context after power-on (R137). -/
def Context.powerOn : Context :=
  { protocolLevel := none
    serial := none
    name := none
    h := none
    v := none
    a := none
    fF := none
    fR := none
    forkDepth := none
    dualCapable := none
    classes := none
    clamped := false
    mode := .manual
    aisle := .unknown
    position := none
    referenced := false
    atHead := false
    tripInHand := 0
    legInProgress := 0
    active := 0
    latched := 0
    detect := BitVec.allOnes 8
    latch := BitVec.allOnes 8
    conflict := false
    nakFault := false
    disabled := false
    drained := false
    work := .idle }

/-- A counter after power-on (R147). -/
def Counter.powerOn : Counter := ⟨0, .wrap, false, 0, false⟩

/-- The counters of a line after power-on (R147). -/
def Counters.powerOn : Counters := ⟨.powerOn, .powerOn, .powerOn, .powerOn, false, false⟩

/-- A crane line after power-on (R135, R99, R153, R163). -/
def Line.powerOn : Line :=
  { link := .absent
    gathered := []
    pagesTaken := 0
    lastToggle := false
    introTimer := none
    exchange := none
    silence := 1000
    stale := []
    lastTrip := 0
    notReady := false
    reconcileDue := false
    strandedCheck := false
    ctx := .powerOn
    trip := none
    counters := .powerOn
    sent := [] }

/-- Every block at its power-on values, the HOLD input standing at `level` (R184). -/
def State.powerOn (level : HoldLevel) : State :=
  { pending := []
    phase := .loading
    clock := ⟨0, 0⟩
    resetDue := false
    host := .powerOn
    jobs := []
    done := []
    freeCount := 512
    aisles := Vector.replicate 16 .powerOn
    slots := []
    disp := .powerOn level
    groups := Vector.replicate 16 .powerOn
    car := .powerOn
    lines := Vector.replicate 8 .powerOn
    settings := .powerOn
    scratch := .empty }

/-- The machine right after power-on with the HOLD input RELEASED (R184; the input's level is assumption 2). -/
def State.reset : State := State.powerOn .released

end Sys2Proof.Machine
end

