-- ==== Sys2Proof/Machine/Ops.lean ====
section
/-! DEFINITION. The named operations over the records: lists kept by key, the job records, the slot records with
the aisle counts (R35) and what each change collects (R43), the aisle locks, the lines, and the notices that one
event gathers. -/

namespace Sys2Proof.Machine

/-! ## Lists of records in rising key -/

/-- The record at key `k`. -/
def lookup {α : Type} (k : Nat) : List (Nat × α) → Option α
  | [] => none
  | (k', v) :: rest => if k = k' then some v else lookup k rest

/-- Writes the record at key `k`, keeping the keys strictly rising. -/
def insertKey {α : Type} (k : Nat) (v : α) : List (Nat × α) → List (Nat × α)
  | [] => [(k, v)]
  | (k', v') :: rest =>
    if k < k' then (k, v) :: (k', v') :: rest
    else if k = k' then (k, v) :: rest
    else (k', v') :: insertKey k v rest

/-- Takes the record at key `k` out of the list. -/
def removeKey {α : Type} (k : Nat) : List (Nat × α) → List (Nat × α)
  | [] => []
  | (k', v') :: rest => if k = k' then removeKey k rest else (k', v') :: removeKey k rest

/-- The first of the entries with the least `measure`. -/
def firstLeast {α : Type} (measure : α → Nat) : List α → Option α
  | [] => none
  | x :: xs =>
    match firstLeast measure xs with
    | none => some x
    | some y => if measure x ≤ measure y then some x else some y

/-- Puts an entry into a list behind every entry it does not come before. -/
def insertBy {α : Type} (before : α → α → Bool) (x : α) : List α → List α
  | [] => [x]
  | y :: ys => if before x y then x :: y :: ys else y :: insertBy before x ys

/-- Sorts a list, entries that come before neither way keeping their order. -/
def sortBy {α : Type} (before : α → α → Bool) (xs : List α) : List α :=
  xs.foldl (fun sorted x => insertBy before x sorted) []

/-- The difference of two numbers without sign (R62). -/
def apart (a b : Nat) : Nat := (a - b) + (b - a)

def allCranes : List (Fin 8) := [0, 1, 2, 3, 4, 5, 6, 7]

def allAisles : List (Fin 16) := [0, 1, 2, 3, 4, 5, 6, 7, 8, 9, 10, 11, 12, 13, 14, 15]

def allGroups : List (Fin 16) := [0, 1, 2, 3, 4, 5, 6, 7, 8, 9, 10, 11, 12, 13, 14, 15]

/-! ## Lines, aisles and groups by number -/

def State.line (s : State) (c : Fin 8) : Line := s.lines.get c

def State.setLine (s : State) (c : Fin 8) (l : Line) : State :=
  { s with lines := s.lines.set c.val l c.isLt }

def State.updateLine (s : State) (c : Fin 8) (f : Line → Line) : State := s.setLine c (f (s.line c))

def State.updateCtx (s : State) (c : Fin 8) (f : Context → Context) : State :=
  s.updateLine c (fun l => { l with ctx := f l.ctx })

def State.aisle (s : State) (a : Fin 16) : Aisle := s.aisles.get a

def State.setAisle (s : State) (a : Fin 16) (r : Aisle) : State :=
  { s with aisles := s.aisles.set a.val r a.isLt }

def State.group (s : State) (g : Fin 16) : Group := s.groups.get g

def State.setGroup (s : State) (g : Fin 16) (r : Group) : State :=
  { s with groups := s.groups.set g.val r g.isLt }

/-! ## Notices gathered in an event -/

/-- The Dispatcher is told of a trigger of a pass (R70). -/
def State.tellDispatcher (s : State) : State :=
  { s with disp := { s.disp with passesDue := s.disp.passesDue + 1 } }

/-- A counter input of crane `c` occurs (R148). -/
def State.noteInput (s : State) (c : Fin 8) (code : Nat) : State :=
  { s with scratch := { s.scratch with inputs := s.scratch.inputs ++ [(c, code)] } }

/-- At the event's end, line `c` works out the crane's eligibility and tells the Dispatcher when the crane has
become eligible (R55, R138). -/
def State.noteLine (s : State) (c : Fin 8) : State :=
  { s with scratch := { s.scratch with told := s.scratch.told ++ [c] } }

/-- Job `i` is evaluated at the event's end before the collected jobs (R44, R45). -/
def State.noteOwn (s : State) (i : Nat) : State :=
  { s with scratch := { s.scratch with own := s.scratch.own ++ [i] } }

/-- Jobs are collected for re-evaluation (R43). -/
def State.collect (s : State) (js : List Nat) : State :=
  { s with scratch := { s.scratch with collected := s.scratch.collected ++ js } }

/-! ## Job records -/

def State.job (s : State) (i : Nat) : Option Job := lookup i s.jobs

def State.setJob (s : State) (i : Nat) (j : Job) : State := { s with jobs := insertKey i j s.jobs }

/-- Changes the record at index `i`, when it is not FREE. -/
def State.updateJob (s : State) (i : Nat) (f : Job → Job) : State :=
  match s.job i with
  | none => s
  | some j => s.setJob i (f j)

/-- The lowest index from `k` on that a rising list does not hold. -/
def firstGap {α : Type} (k : Nat) : List (Nat × α) → Nat
  | [] => k
  | (k', _) :: rest => if k = k' then firstGap (k + 1) rest else k

/-- The lowest-indexed FREE record (R5). -/
def State.lowestFree (s : State) : Nat := firstGap 0 s.jobs

/-- Draws record `i` from the FREE records and fills it (R5). -/
def State.takeRecord (s : State) (i : Nat) (j : Job) : State :=
  { s with jobs := insertKey i j s.jobs, freeCount := s.freeCount - 1 }

/-- The record indices, not FREE, whose record meets a condition, in rising order. -/
def State.jobsWhere (s : State) (p : Job → Bool) : List Nat :=
  (s.jobs.filter (fun e => p e.2)).map Prod.fst

/-- The record a tag names (R3). -/
def State.byTag (s : State) (tag : Nat) : Option (Nat × Job) :=
  if 1 ≤ tag ∧ tag ≤ 0x7FFFFFFF then s.jobs.find? (fun e => e.2.tag == tag)
  else if 0x80000000 ≤ tag ∧ tag ≤ 0x800001FF then
    match s.job (tag - 0x80000000) with
    | some j => if j.kind = .relocate then some (tag - 0x80000000, j) else none
    | none => none
  else none

/-- The jobs waiting with pending reason NO_RECORD (R43). -/
def State.waitingForRecord (s : State) : List Nat :=
  s.jobsWhere (fun j => j.state == .pending && j.reason == some .noRecord)

/-- A record becomes FREE (R11): every field becomes absent, the FREE count rises, and the jobs waiting with
NO_RECORD are collected. -/
def State.freeRecord (s : State) (i : Nat) : State :=
  let t := { s with jobs := removeKey i s.jobs, freeCount := s.freeCount + 1 }
  t.collect t.waitingForRecord

/-! ## Geometry and slot records -/

/-- The number of slot records of an aisle with this geometry (R30). -/
def Geometry.slots (g : Geometry) : Nat := 2 * g.levels * g.bays * g.depths

/-- The slot address lies within the geometry (R30). -/
def Geometry.holds (g : Geometry) (p : SlotPos) : Bool :=
  p.level < g.levels && p.bay < g.bays && (p.depth == .front || g.depths == 2)

/-- A slot record as SET AISLE makes it (R31). -/
def freshSlot (defaultClass : Nat) : Slot := ⟨.empty, defaultClass, none, none, false⟩

/-- The default slot class of an aisle. -/
def State.defaultClass (s : State) (a : Fin 16) : Nat :=
  match (s.aisle a).geometry with
  | some g => g.defaultClass
  | none => 0

/-- The slot record at a slot: the listed one, or the fresh one that an unlisted slot holds (R31). -/
def State.slot (s : State) (a : Fin 16) (p : SlotPos) : Slot :=
  (lookup (slotKey a p) s.slots).getD (freshSlot (s.defaultClass a))

/-- Whether the occupied count counts the slot (R35). -/
def Slot.countsOccupied (r : Slot) : Bool := r.condition == .occupied

/-- Whether the free count counts the slot (R35). -/
def Slot.countsFree (r : Slot) : Bool := r.condition == .empty && r.reservation.isNone && !r.unverified

/-- The aisle counts after a slot record has changed (R35). -/
def Aisle.moveCounts (r : Aisle) (old new : Slot) : Aisle :=
  { r with
    occupied := r.occupied + new.countsOccupied.toNat - old.countsOccupied.toNat
    free := r.free + new.countsFree.toNat - old.countsFree.toNat }

/-- Writes a slot record and moves the aisle's counts in the same change (R35). A record equal to a fresh one is
taken out of the list, so that equal maps are equal lists. -/
def State.putSlot (s : State) (a : Fin 16) (p : SlotPos) (new : Slot) : State :=
  let old := s.slot a p
  let k := slotKey a p
  let t := s.setAisle a ((s.aisle a).moveCounts old new)
  { t with
    slots := if new = freshSlot (s.defaultClass a) then removeKey k s.slots else insertKey k new s.slots }

/-- Two slots stand at one location (Section 0.5). -/
def SlotPos.sameLocation (p q : SlotPos) : Bool := p.side == q.side && p.level == q.level && p.bay == q.bay

/-- The other slot of a location in a double-deep aisle. -/
def SlotPos.atDepth (p : SlotPos) (d : Depth) : SlotPos := { p with depth := d }

/-- First row of R43: the jobs that wait on the location of a slot. -/
def State.waitingAtLocation (s : State) (a : Fin 16) (p : SlotPos) : List Nat :=
  s.jobsWhere (fun j =>
    j.state == .pending && j.aisle == a &&
      (j.reason == some .slotBlocked || j.reason == some .frontBlocked || j.reason == some .rearPending) &&
      (match j.slot with | some q => q.sameLocation p | none => false))

/-- Second row of R43: the jobs of an aisle that wait with NO_ROOM. -/
def State.waitingForRoom (s : State) (a : Fin 16) : List Nat :=
  s.jobsWhere (fun j => j.state == .pending && j.aisle == a && j.reason == some .noRoom)

/-- The change of a slot record that the second row of R43 lists: it becomes EMPTY, loses a reservation or its
unverified mark, leaves BLOCKED, or has its class raised. -/
def Slot.opensRoom (old new : Slot) : Bool :=
  (new.condition == .empty && old.condition != .empty) ||
  (old.reservation.isSome && new.reservation.isNone) ||
  (old.unverified && !new.unverified) ||
  (old.condition == .blocked && new.condition != .blocked) ||
  old.slotClass < new.slotClass

/-- The two records hold the same condition, slot class and pallet class: a setting to the values already held (R52). -/
def Slot.sameValues (old new : Slot) : Bool :=
  old.condition == new.condition && old.slotClass == new.slotClass && old.pallet == new.pallet

/-- Writes a slot record and collects the jobs that wait on the change (R43). `asChanged` is SET SLOT's: it is a change
to the location whatever it writes, and a setting of an EMPTY slot to the values it already holds collects as if the
slot had become EMPTY (R52, assumption 14). -/
def State.changeSlot (s : State) (a : Fin 16) (p : SlotPos) (asChanged : Bool) (new : Slot) : State :=
  let old := s.slot a p
  let t := s.putSlot a p new
  let t :=
    if asChanged || old.condition != new.condition || old.reservation != new.reservation
    then t.collect (t.waitingAtLocation a p) else t
  if old.opensRoom new || (asChanged && old.sameValues new && new.condition == .empty)
  then t.collect (t.waitingForRoom a) else t

/-- Places the reservation of job `i` on a slot (R34). -/
def State.reserve (s : State) (a : Fin 16) (p : SlotPos) (k : ResKind) (i : Nat) : State :=
  s.changeSlot a p false { s.slot a p with reservation := some ⟨k, i⟩ }

/-- The slot record without the reservation of job `i`. -/
def Slot.without (r : Slot) (i : Nat) : Slot :=
  { r with reservation := match r.reservation with | some v => if v.job = i then none else some v | none => none }

/-- Changes the slot record at a slot that may be absent, the reservation of job `i` being removed (R45). -/
def State.settleSlot (s : State) (a : Fin 16) (p : Option SlotPos) (i : Nat) (f : Slot → Slot) : State :=
  match p with
  | none => s
  | some p => s.changeSlot a p false (f ((s.slot a p).without i))

/-- Releases every reservation that job `i` holds (R49). A CHOSEN store gives up its slot (R34). -/
def State.releaseReservations (s : State) (i : Nat) : State :=
  match s.job i with
  | none => s
  | some j =>
    let t := (s.settleSlot j.aisle j.slot i id).settleSlot j.aisle j.target i id
    if j.choice = some .chosen then t.updateJob i (fun k => { k with slot := none }) else t

/-! ## Aisle locks (R97, R98) -/

/-- Crane `c` holds the lock of aisle `a`. -/
def State.holdsLock (s : State) (c : Fin 8) (a : Fin 16) : Bool := (s.aisle a).lock == some c

def State.setLock (s : State) (a : Fin 16) (holder : Option (Fin 8)) : State :=
  s.setAisle a { s.aisle a with lock := holder }

/-- Releases the lock of `a` when `c` holds it, which is told to the Dispatcher (R98). -/
def State.releaseLock (s : State) (c : Fin 8) (a : Fin 16) : State :=
  if s.holdsLock c a then (s.setLock a none).tellDispatcher else s

/-! ## STRANDED jobs of a crane (R162) -/

/-- The job is STRANDED on crane `c`. -/
def Job.strandedOn (j : Job) (c : Fin 8) : Bool :=
  j.state == .stranded && (match j.assignment with | some x => x.crane == c | none => false)

/-- The trip number the job's assignment holds, 0 when absent. -/
def Job.tripNumber (j : Job) : Nat :=
  match j.assignment with
  | some x => x.trip
  | none => 0

/-- The leg index the job's assignment holds, 0 when absent. -/
def Job.legIndex (j : Job) : Nat :=
  match j.assignment with
  | some x => x.leg
  | none => 0

/-- The STRANDED jobs of crane `c` that hold trip number `n`. -/
def State.strandedTrip (s : State) (c : Fin 8) (n : Nat) : List Nat :=
  s.jobsWhere (fun j => j.strandedOn c && j.tripNumber == n)

end Sys2Proof.Machine
end

