-- ==== Sys2Proof/Machine/Flags.lean ====
section
/-! DEFINITION. The status and interrupt flags: the alert set, the six summary conditions and the ATTENTION output
(Sections 9.5 and 9.7), and the faulted condition of a crane (R142). -/

namespace Sys2Proof.Machine

/-- An event puts an alert into the alert set (R173, R174). -/
def State.raise (s : State) (a : Alert) : State :=
  { s with host := { s.host with alerts := s.host.alerts ||| alertBit a } }

/-- A crane is faulted (R142). -/
def Context.faulted (x : Context) : Bool :=
  x.active != 0 || x.latched != 0 || x.conflict || x.nakFault

/-- Some crane line meets a condition. -/
def State.anyLine (s : State) (p : Line → Bool) : Bool := allCranes.any (fun c => p (s.line c))

/-- Whether a summary alert's condition is held; a plain alert has none (R173). -/
def State.conditionHeld (s : State) : Alert → Bool
  | .jobDone => !s.done.isEmpty
  | .stranded => s.jobs.any (fun e => e.2.state == .stranded)
  | .craneLost => s.anyLine (fun l => l.link == .lost)
  | .craneFault => s.anyLine (fun l => l.ctx.latched != 0 || l.ctx.conflict)
  | .car => s.car.link == .lost || s.car.fault || s.car.overdue
  | .service => s.anyLine (fun l => l.ctx.drained)
  | .noRoom => false
  | .seqStall => false
  | .hold => false
  | .intro => false

/-- The bit of an alert when its condition is held. -/
def State.conditionBit (s : State) (a : Alert) : AlertSet := if s.conditionHeld a then alertBit a else 0

/-- The summary alerts whose condition is held (R173). -/
def State.heldConditions (s : State) : AlertSet :=
  s.conditionBit .jobDone ||| s.conditionBit .stranded ||| s.conditionBit .craneLost |||
    s.conditionBit .craneFault ||| s.conditionBit .car ||| s.conditionBit .service

/-- ATTENTION as the alert set and the mask give it (R178). -/
def HostPort.wantsAttention (h : HostPort) : Bool := h.alerts &&& h.mask != 0

/-- The port takes the conditions afresh: a condition that comes to be held sets its alert (R173), and ATTENTION
follows (R178). -/
def State.takeConditions (s : State) : State :=
  let now := s.heldConditions
  let host := { s.host with alerts := s.host.alerts ||| (now &&& ~~~s.host.conditions), conditions := now }
  { s with host := { host with attention := host.wantsAttention } }

end Sys2Proof.Machine
end

