-- ==== Sys2Proof/Machine/GroupTable.lean ====
section
/-! DEFINITION. The Group Table's operations (Chapter 4): membership, finishing a rank, advancing, closing, and the
stall report. -/

namespace Sys2Proof.Machine

/-- Writes a rank into a set of ranks held in ascending order without repeats (R79). -/
def insertRank (r : Nat) : List Nat → List Nat
  | [] => [r]
  | x :: xs => if r < x then r :: x :: xs else if r = x then x :: xs else x :: insertRank r xs

/-- Step 2 of R83: while the ascending done-ahead set holds the next rank, the rank leaves the set and the next rank
increases. -/
def absorbRanks (next : Nat) : List Nat → Nat × List Nat
  | [] => (next, [])
  | x :: xs => if x = next then absorbRanks (next + 1) xs else (next, x :: xs)

/-- A group as CLOSE GROUP leaves it (R89). -/
def Group.closed : Group := ⟨0, none⟩

/-- A grouped retrieve becomes a member (R80). -/
def State.joinGroup (s : State) (g : Fin 16) : State :=
  s.setGroup g { s.group g with members := (s.group g).members + 1 }

/-- The advance of R83 from a next rank that has been finished. When the next rank would pass 65535, the group
closes instead and no pass is told (R84; assumption 8 for a rank 65535 that was finished ahead). -/
def State.advanceGroup (s : State) (g : Fin 16) (o : OpenGroup) : State :=
  let moved := absorbRanks (o.next + 1) o.ahead
  if moved.1 ≤ 65535 then
    (s.setGroup g { s.group g with
      opened := some { o with next := moved.1, ahead := moved.2, stallTimer := 0, stallReported := false } }).tellDispatcher
  else s.setGroup g .closed

/-- Rank `r` of a group is finished (R82). -/
def State.finishRank (s : State) (g : Fin 16) (r : Nat) : State :=
  match (s.group g).opened with
  | none => s
  | some o =>
    if r = o.next then s.advanceGroup g o
    else if o.next < r then
      s.setGroup g { s.group g with opened := some { o with ahead := insertRank r o.ahead } }
    else s

/-- A membership ends (R81): the count falls, and a COMPLETED outcome finishes the rank. -/
def State.endMembership (s : State) (m : GroupRank) (o : JobOutcome) : State :=
  let t := s.setGroup m.group { s.group m.group with members := (s.group m.group).members - 1 }
  if o = .completed then t.finishRank m.group m.rank else t

/-- A job is a live member of group `g` at rank `r` (R79: live is any state but FREE and DONE). -/
def Job.liveAt (j : Job) (g : Fin 16) (r : Nat) : Bool := j.state != .done && j.group == some ⟨g, r⟩

/-- Some live member of the group holds the rank. -/
def State.rankHeld (s : State) (g : Fin 16) (r : Nat) : Bool := s.jobs.any (fun e => e.2.liveAt g r)

/-- The group's stall timer stands at its limit and the stall has not been reported (R87). -/
def OpenGroup.stalls (o : OpenGroup) : Bool := o.stallLimit != 0 && !o.stallReported && o.stallLimit ≤ o.stallTimer

/-- The report of a stall: the flag is set and SEQ_STALL raised (R87). -/
def State.reportStall (s : State) (g : Fin 16) : State :=
  match (s.group g).opened with
  | none => s
  | some o =>
    if o.stalls then
      (s.setGroup g { s.group g with opened := some { o with stallReported := true } }).raise .seqStall
    else s

/-- A second of the dispatch clock at one group (R87). -/
def State.countStall (s : State) (g : Fin 16) : State :=
  match (s.group g).opened with
  | none => s
  | some o =>
    if (s.group g).members = 0 then s
    else
      (s.setGroup g { s.group g with
        opened := some { o with stallTimer := min 65535 (o.stallTimer + 1) } }).reportStall g

/-- A grouped retrieve is inside its group's release window (R86). -/
def State.insideWindow (s : State) (m : GroupRank) : Bool :=
  match (s.group m.group).opened with
  | none => false
  | some o => m.rank < o.next + o.window

/-- A grouped retrieve is the head of its sequence (R86). -/
def State.headOfSequence (s : State) (m : GroupRank) : Bool :=
  match (s.group m.group).opened with
  | none => false
  | some o => m.rank == o.next

end Sys2Proof.Machine
end

