-- ==== Sys2Proof/Machine/SlotMap.lean ====
section
/-! DEFINITION. The Job Table's moves of a record (Section 1.3) and the Slot Map's evaluation (Sections 2.3 to 2.6):
entry into DONE, READY and PENDING, store choice, relocation synthesis, re-evaluation of waiting jobs, and the slot
effects of outcomes. -/

namespace Sys2Proof.Machine

/-! ## Moves of a job record -/

/-- A record enters DONE (R9): the outcome is stored, the fields DONE does not allow become absent, the index joins
the DONE list, JOB_DONE is raised, a group membership ends, and a link is dissolved at both ends (R12). The dependent
of a relocation is to be evaluated (R45). -/
def State.enterDone (s : State) (i : Nat) (o : JobOutcome) : State :=
  match s.job i with
  | none => s
  | some j =>
    let t := s.setJob i { j with state := .done, reason := none, assignment := none, link := none, outcome := some o }
    let t := ({ t with done := t.done ++ [i] }).raise .jobDone
    let t := match j.group with
      | some m => t.endMembership m o
      | none => t
    match j.link with
    | none => t
    | some l =>
      let t := t.updateJob l (fun k => { k with link := none })
      if j.kind = .relocate then t.noteOwn l else t

/-- The job is withdrawn (R8, R49): its reservations are released and it enters DONE with outcome WITHDRAWN. -/
def State.withdrawNow (s : State) (i : Nat) : State := (s.releaseReservations i).enterDone i .withdrawn

/-- A relocation becomes FREE directly (R12, R21): its reservations are released and it does not enter DONE. -/
def State.freeDirectly (s : State) (i : Nat) : State := (s.releaseReservations i).freeRecord i

/-- Some rule would move job `i` into READY or PENDING. A job whose withdraw requested is SET enters DONE WITHDRAWN
instead (R8), and a relocation without a dependent becomes FREE instead (R12). Otherwise `move` is made. -/
def State.returnJob (s : State) (i : Nat) (move : Job → State) : State :=
  match s.job i with
  | none => s
  | some j =>
    if j.withdrawRequested then s.withdrawNow i
    else if j.kind = .relocate ∧ j.link = none then s.freeDirectly i
    else move j

/-- Entry into READY (R7): the Dispatcher is told. -/
def State.enterReady (s : State) (i : Nat) : State :=
  s.returnJob i (fun j =>
    (s.setJob i { j with state := .ready, reason := none, assignment := none }).tellDispatcher)

/-- Entry into PENDING with a reason (R7). NO_ROOM is raised when the job was in another state or held another reason
(R37). -/
def State.enterPending (s : State) (i : Nat) (r : PendingReason) : State :=
  s.returnJob i (fun j =>
    let t := s.setJob i { j with state := .pending, reason := some r, assignment := none }
    if r = .noRoom ∧ ¬ (j.state = .pending ∧ j.reason = some .noRoom) then t.raise .noRoom else t)

/-- Entry into STRANDED: the assignment is kept and STRANDED is raised (R7, R157, R162). -/
def State.enterStranded (s : State) (i : Nat) : State :=
  (s.updateJob i (fun j => { j with state := .stranded })).raise .stranded

/-! ## Double-deep access (R36) -/

/-- The reservation is one of a PENDING job. -/
def State.pendingReservation (s : State) (r : Reservation) : Bool :=
  match s.job r.job with
  | some j => j.state == .pending
  | none => false

/-- The reservation is one of a job in READY, ORDERED, ACTIVE or STRANDED. -/
def State.workingReservation (s : State) (r : Reservation) : Bool :=
  match s.job r.job with
  | some j => j.state != .pending && j.state != .done
  | none => false

/-- The FRONT of a location is passable for a job on its REAR (R36). -/
def State.frontPassable (s : State) (a : Fin 16) (p : SlotPos) : Bool :=
  let front := s.slot a (p.atDepth .front)
  front.condition == .empty &&
    (match front.reservation with | none => true | some r => s.pendingReservation r)

/-- The aisle is configured double-deep. -/
def State.doubleDeep (s : State) (a : Fin 16) : Bool :=
  match (s.aisle a).geometry with
  | some g => g.depths == 2
  | none => false

/-! ## Store choice (R40) and the target of a relocation (R42) -/

/-- h and v of the lowest-numbered crane whose link is UP, or 400 and 900 (R40). -/
def State.choiceTiming (s : State) : Nat × Nat :=
  match allCranes.find? (fun c => (s.line c).link == .up) with
  | none => (Config.defaultH, Config.defaultV)
  | some c => ((s.line c).ctx.h.getD Config.defaultH, (s.line c).ctx.v.getD Config.defaultV)

/-- Every slot of an aisle in the order that settles ties: REAR before FRONT, LEFT before RIGHT, then the lower level,
then the lower bay (R40). -/
def slotsInTieOrder (g : Geometry) : List SlotPos :=
  (if g.depths = 2 then [Depth.rear, Depth.front] else [Depth.front]).flatMap (fun d =>
    [Side.left, Side.right].flatMap (fun side =>
      (List.range g.levels).flatMap (fun level =>
        (List.range g.bays).map (fun bay => ⟨side, level, bay, d⟩))))

/-- The four conditions of a candidate (R40). -/
def State.choiceCandidate (s : State) (a : Fin 16) (loadClass : Nat) (p : SlotPos) : Bool :=
  let r := s.slot a p
  r.condition == .empty && r.reservation.isNone && !r.unverified && loadClass ≤ r.slotClass &&
    (match p.depth with
      | .rear =>
        let front := s.slot a (p.atDepth .front)
        front.condition == .empty && front.reservation.isNone
      | .front => !s.doubleDeep a || (s.slot a (p.atDepth .rear)).reservation.isNone)

/-- The access time of a slot from a position, milliseconds (R40, R42). -/
def accessTime (timing : Nat × Nat) (start : Nat × Nat) (p : SlotPos) : Nat :=
  max (apart p.bay start.1 * timing.1) (apart p.level start.2 * timing.2)

/-- The candidate with the least access time from (bay, level) `start`, ties settled by the order of the slots. The
slots of location `besides` are left out (R42). -/
def State.chooseSlot (s : State) (a : Fin 16) (loadClass : Nat) (start : Nat × Nat) (besides : Option SlotPos) :
    Option SlotPos :=
  match (s.aisle a).geometry with
  | none => none
  | some g =>
    firstLeast (accessTime s.choiceTiming start)
      ((slotsInTieOrder g).filter (fun p =>
        s.choiceCandidate a loadClass p &&
          (match besides with | some q => !p.sameLocation q | none => true)))

/-! ## Evaluation (R37 to R42) -/

/-- The relocation made for dependent `i` (R4). -/
def relocationRecord (d : Job) (i idx : Nat) (source target : SlotPos) (loadClass : Nat) : Job :=
  { tag := 0x80000000 + idx
    kind := .relocate
    state := .ready
    reason := none
    aisle := d.aisle
    slot := some source
    target := some target
    choice := none
    loadClass := loadClass
    attr := d.attr
    priority := d.priority
    age := 0
    staged := none
    group := none
    link := some i
    assignment := none
    withdrawRequested := false
    excluded := 0
    refusals := 0
    lastScore := none
    outcome := none }

/-- R42: a relocation is synthesised for RETRIEVE `i` whose slot is the REAR slot `p`, or the reason why it cannot
be. -/
def State.synthesise (s : State) (i : Nat) (d : Job) (p : SlotPos) : State :=
  let source := p.atDepth .front
  if s.freeCount = 0 then s.enterPending i .noRecord
  else
    let loadClass := (s.slot d.aisle source).pallet.getD 0
    match s.chooseSlot d.aisle loadClass (p.bay, p.level) (some p) with
    | none => s.enterPending i .noRoom
    | some target =>
      let idx := s.lowestFree
      let t := s.takeRecord idx (relocationRecord d i idx source target loadClass)
      let t := (t.reserve d.aisle source .outOf idx).reserve d.aisle target .into idx
      let t := t.tellDispatcher
      (t.updateJob i (fun j => { j with link := some idx })).enterPending i .prerequisite

/-- The evaluation of an EXPLICIT store (R38). -/
def State.evaluateExplicit (s : State) (i : Nat) (j : Job) (p : SlotPos) : State :=
  if j.staged ≠ some true then s.enterPending i .notStaged
  else if (s.slot j.aisle p).condition = .blocked then s.enterPending i .slotBlocked
  else if p.depth = .rear ∧ ¬ s.frontPassable j.aisle p then s.enterPending i .frontBlocked
  else if p.depth = .front ∧ s.doubleDeep j.aisle ∧ (s.slot j.aisle (p.atDepth .rear)).reservation.isSome
  then s.enterPending i .rearPending
  else s.enterReady i

/-- The evaluation of a CHOSEN store (R39). -/
def State.evaluateChosen (s : State) (i : Nat) (j : Job) : State :=
  if j.staged ≠ some true then s.enterPending i .notStaged
  else
    match s.chooseSlot j.aisle j.loadClass (0, 0) none with
    | none => s.enterPending i .noRoom
    | some p =>
      ((s.reserve j.aisle p .into i).updateJob i (fun k => { k with slot := some p })).enterReady i

/-- The evaluation of a RETRIEVE (R41). -/
def State.evaluateRetrieve (s : State) (i : Nat) (j : Job) (p : SlotPos) : State :=
  if (s.slot j.aisle p).condition = .blocked then s.enterPending i .slotBlocked
  else if p.depth = .front then s.enterReady i
  else if s.frontPassable j.aisle p then s.enterReady i
  else
    let front := s.slot j.aisle (p.atDepth .front)
    if front.condition = .occupied ∧ front.reservation = none then s.synthesise i j p
    else s.enterPending i .frontBlocked

/-- The Slot Map evaluates job `i` (R37). A RELOCATE is not evaluated. -/
def State.evaluate (s : State) (i : Nat) : State :=
  match s.job i with
  | none => s
  | some j =>
    match j.kind, j.choice, j.slot with
    | .store, some .chosen, _ => s.evaluateChosen i j
    | .store, _, some p => s.evaluateExplicit i j p
    | .retrieve, _, some p => s.evaluateRetrieve i j p
    | _, _, _ => s

/-- Evaluates job `i` if it is PENDING. -/
def State.evaluatePending (s : State) (i : Nat) : State :=
  match s.job i with
  | none => s
  | some j => if j.state = .pending then s.evaluate i else s

/-- The order of R44: the greatest age first, and among equal ages the lowest index. -/
def State.ageOrder (s : State) (js : List Nat) : List Nat :=
  let aged := (s.jobs.filter (fun e => js.contains e.1)).map (fun e => (e.1, e.2.age))
  (sortBy (fun x y => y.2 < x.2) aged).map Prod.fst

/-- The evaluations that an event brings about (R44): the dependents noted, then the collected jobs in the order of
R44. Changes made by evaluations of the collected set collect no further jobs. -/
def State.settleEvaluations (s : State) : State :=
  let own := s.scratch.own
  let t := own.foldl State.evaluatePending { s with scratch := { s.scratch with own := [] } }
  let t := (t.ageOrder t.scratch.collected).foldl State.evaluatePending t
  { t with scratch := { t.scratch with own := [], collected := [] } }

/-! ## Slot effects of outcomes (R45 to R48) -/

/-- What a slot holds after a pallet of class `c` has been put there. -/
def Slot.filled (c : Nat) (r : Slot) : Slot := { r with condition := .occupied, pallet := some c }

/-- What a slot holds after its pallet has been taken. -/
def Slot.emptied (r : Slot) : Slot := { r with condition := .empty, pallet := none }

/-- A slot that a crane found other than the map recorded it (R33). -/
def Slot.doubted (r : Slot) : Slot := { r with unverified := true }

/-- The slot effects of a COMPLETED leg (R46, R47, R48), and DONE COMPLETED. -/
def State.completeJob (s : State) (i : Nat) (j : Job) : State :=
  let t :=
    match j.kind with
    | .store => s.settleSlot j.aisle j.slot i (Slot.filled j.loadClass)
    | .retrieve => s.settleSlot j.aisle j.slot i Slot.emptied
    | .relocate =>
      (s.settleSlot j.aisle j.slot i Slot.emptied).settleSlot j.aisle j.target i (Slot.filled j.loadClass)
  t.enterDone i .completed

/-- The slot and job effects of an outcome that the kind of the job allows (R46, R47, R48). -/
def State.applyOutcome (s : State) (i : Nat) (j : Job) (o : JobOutcome) : State :=
  match o with
  | .completed => s.completeJob i j
  | .withdrawn => s.withdrawNow i
  | .slotOccupied =>
    let t := s.settleSlot j.aisle j.slot i (fun r => (r.filled 15).doubted)
    if j.choice = some .chosen then
      let t := t.updateJob i (fun k => { k with slot := none })
      if j.withdrawRequested then t.withdrawNow i else t.evaluate i
    else t.enterDone i .slotOccupied
  | .slotEmpty =>
    let t := s.settleSlot j.aisle j.slot i (fun r => r.emptied.doubted)
    (t.settleSlot j.aisle j.target i id).enterDone i .slotEmpty
  | .targetOccupied =>
    let t := (s.settleSlot j.aisle j.target i (fun r => (r.filled 15).doubted)).enterDone i .targetOccupied
    t.settleSlot j.aisle j.slot i id
  | .loadRefused =>
    let t := s.settleSlot j.aisle j.slot i id
    let t := if j.choice = some .chosen then t.updateJob i (fun k => { k with slot := none }) else t
    t.enterDone i .loadRefused

/-- The effects of a crane's report on the leg's job (the table of R157). -/
def State.applyReport (s : State) (i : Nat) (r : LegReport) : State :=
  match s.job i with
  | none => s
  | some j =>
    match r with
    | .ended o => s.applyOutcome i j o
    | .cancelled => s.enterReady i
    | .notMoved => s.enterReady i
    | .onForks => s.enterStranded i
    | .improper => s.enterStranded i

/-- The counter input a leg's report counts, if any (R148, step 2 of R157). -/
def legInput (kind : JobKind) (r : LegReport) : Option Nat :=
  match r with
  | .ended .completed => some (match kind with | .store => 2 | .retrieve => 3 | .relocate => 4)
  | .notMoved => some 5
  | .onForks => some 5
  | _ => none

end Sys2Proof.Machine
end

