-- ==== Sys2Proof/Machine/Eligibility.lean ====
section
/-! DEFINITION. Eligibility of a crane (R55), the trip numbers that are passed over (R73), and the counters of a
crane line with the inputs they count (Section 7.7). -/

namespace Sys2Proof.Machine

/-- The trip number of the line's open CANCEL ALL exchange is `n`. -/
def Line.cancelsAll (l : Line) (n : Nat) : Bool :=
  match l.exchange with
  | some x => x.kind == .cancelAll n
  | none => false

/-- A CANCEL ALL for number `n` waits in the list of stale cancels or is the open exchange (R131). -/
def Line.cancelling (l : Line) (n : Nat) : Bool := l.stale.contains n || l.cancelsAll n

/-- Trip number `n` is passed over for crane `c` (R73). -/
def State.numberPassedOver (s : State) (c : Fin 8) (n : Nat) : Bool :=
  !(s.strandedTrip c n).isEmpty || (s.line c).cancelling n || (s.line c).ctx.tripInHand == n

/-- The first trip number from `n` on, counting 1 to 255 and from 255 back to 1, that is not passed over; `fuel`
numbers are looked at. -/
def State.freeNumberFrom (s : State) (c : Fin 8) : Nat → Nat → Option Nat
  | 0, _ => none
  | fuel + 1, n =>
    let n := if n = 0 ∨ 255 < n then 1 else n
    if s.numberPassedOver c n then s.freeNumberFrom c fuel (n + 1) else some n

/-- The number the crane's next trip takes (R73), absent when every number is passed over. -/
def State.nextTripNumber (s : State) (c : Fin 8) : Option Nat := s.freeNumberFrom c 255 ((s.line c).lastTrip + 1)

/-- The last reported trip in hand allows new work (R55): it is 0, or names no STRANDED job of the crane and no
stale number. -/
def State.handAllows (s : State) (c : Fin 8) : Bool :=
  let n := (s.line c).ctx.tripInHand
  n == 0 || ((s.strandedTrip c n).isEmpty && !(s.line c).cancelling n)

/-- The crane stands in an aisle that is configured (R55). -/
def State.inConfiguredAisle (s : State) (c : Fin 8) : Bool :=
  match (s.line c).ctx.aisle with
  | .inAisle a => (s.aisle a).geometry.isSome
  | .onCar => false
  | .unknown => false

/-- The crane is the crane of the car's current request. -/
def State.beingCarried (s : State) (c : Fin 8) : Bool :=
  match s.car.current with
  | some r => r.crane == c
  | none => false

/-- The crane is eligible for new work (R55). -/
def State.eligible (s : State) (c : Fin 8) : Bool :=
  let l := s.line c
  l.link == .up && l.ctx.work == .idle && !l.notReady && !s.beingCarried c && s.handAllows c &&
    (s.nextTripNumber c).isSome && l.ctx.mode == .auto && !l.ctx.faulted && !l.ctx.disabled && !l.ctx.drained &&
    s.inConfiguredAisle c && s.phase == .running && !s.disp.held

/-! ## Counter inputs (R148) -/

/-- Select codes 11 to 14 name state inputs. -/
def isStateInput (code : Nat) : Bool := 11 ≤ code && code ≤ 14

/-- Whether a state input of crane `c` holds. -/
def State.inputHolds (s : State) (c : Fin 8) (code : Nat) : Bool :=
  if code = 11 then (s.line c).ctx.work == .busy
  else if code = 12 then s.eligible c
  else if code = 13 then (s.line c).ctx.faulted
  else if code = 14 then (s.line c).ctx.aisle == .onCar
  else false

/-- How often an event input of crane `c` occurred in the event. -/
def State.occurrences (s : State) (c : Fin 8) (code : Nat) : Nat := s.scratch.inputs.count (c, code)

/-- How often an A counter's selected input is to be counted at the end of an event that began at `before` (R148):
a state input once when the event makes it hold. -/
def State.amountA (before s : State) (c : Fin 8) (select : Nat) : Nat :=
  if select = 0 then 0
  else if isStateInput select then (s.inputHolds c select && !before.inputHolds c select).toNat
  else s.occurrences c select

/-- How often a B counter's selected input is to be counted (R148): a state input at each tenth of a second at which
it holds. -/
def State.amountB (s : State) (c : Fin 8) (select : Nat) : Nat :=
  if select = 0 then 0
  else if isStateInput select then (if s.inputHolds c select then s.occurrences c 15 else 0)
  else s.occurrences c select

/-- An A counter may count: it is not combined, or its B counter's input is a state input that holds (R149). -/
def State.gateOpen (s : State) (c : Fin 8) (combine : Bool) (b : Counter) : Bool :=
  !combine || (isStateInput b.select && s.inputHolds c b.select)

/-- How often an A counter is to be counted, its gate being judged as the event leaves it (R149). -/
def State.gatedA (before s : State) (c : Fin 8) (combine : Bool) (a b : Counter) : Nat :=
  if s.gateOpen c combine b then before.amountA s c a.select else 0

def allCounters : List CounterId := [.a0, .b0, .a1, .b1]

def Counters.get (k : Counters) : CounterId → Counter
  | .a0 => k.a0
  | .b0 => k.b0
  | .a1 => k.a1
  | .b1 => k.b1

def Counters.set (k : Counters) (id : CounterId) (x : Counter) : Counters :=
  match id with
  | .a0 => { k with a0 := x }
  | .b0 => { k with b0 := x }
  | .a1 => { k with a1 := x }
  | .b1 => { k with b1 := x }

/-- One more count of a counter (R150). -/
def Counter.count (k : Counter) : Counter :=
  if k.value < Config.counterMax then { k with value := k.value + 1 }
  else
    match k.mode with
    | .wrap => { k with value := 0, overflow := true }
    | .saturate => { k with overflow := true }

/-- One more count would wrap the counter and drain its crane (R150). -/
def Counter.drains (k : Counter) : Bool := Config.counterMax ≤ k.value && k.mode == .wrap && k.drainEnable

/-- Counter `id` of crane `c` counts once more; a wrap with drain enable drains the crane and raises SERVICE
(R150, R143). -/
def State.bump (s : State) (c : Fin 8) (id : CounterId) : State :=
  let k := (s.line c).counters.get id
  let t := s.updateLine c (fun l => { l with counters := l.counters.set id k.count })
  if k.drains then (t.updateCtx c (fun x => { x with drained := true })).raise .service else t

/-- Counter `id` of crane `c` counts `n` times. -/
def State.bumpTimes (s : State) (c : Fin 8) (id : CounterId) : Nat → State
  | 0 => s
  | n + 1 => (s.bump c id).bumpTimes c id n

/-- How often counter `id` of crane `c` is to count, for an event that began at `before` and leaves things as `t`
(R148, R149). -/
def State.amount (before t : State) (c : Fin 8) (id : CounterId) : Nat :=
  let k := (t.line c).counters
  match id with
  | .a0 => before.gatedA t c k.combine0 k.a0 k.b0
  | .b0 => t.amountB c k.b0.select
  | .a1 => before.gatedA t c k.combine1 k.a1 k.b1
  | .b1 => t.amountB c k.b1.select

/-- Counter `id` of crane `c` selects an event input, and an occurrence of it would be counted: a combined A counter
counts only while B's input is a state input that holds (R148, R149). -/
def State.mayCount (s : State) (c : Fin 8) (id : CounterId) : Bool :=
  let k := (s.line c).counters
  let select := (k.get id).select
  select != 0 && !isStateInput select &&
    (match id with
      | .a0 => s.gateOpen c k.combine0 k.b0
      | .b0 => true
      | .a1 => s.gateOpen c k.combine1 k.b1
      | .b1 => true)

/-- Whether what a counter counts depends on IDLE-eligible, select code 12, the one input that a wrap can change: by
draining the crane it ends that state (R150, R55). -/
def Counters.readsEligible (k : Counters) : CounterId → Bool
  | .a0 => k.a0.select == 12 || (k.combine0 && k.b0.select == 12)
  | .b0 => k.b0.select == 12
  | .a1 => k.a1.select == 12 || (k.combine1 && k.b1.select == 12)
  | .b1 => k.b1.select == 12

/-- The order in which the counters of a crane count: first those that no wrap can affect, then those that depend on
the crane's eligibility, so that a crane drained by a wrap is seen drained (R148, R149; assumption 12). -/
def Counters.order (k : Counters) : List CounterId :=
  allCounters.filter (fun id => !k.readsEligible id) ++ allCounters.filter k.readsEligible

/-- Counter `id` of crane `c` counts what the event that began at `before` brought. -/
def State.countCounter (before : State) (c : Fin 8) (t : State) (id : CounterId) : State :=
  t.bumpTimes c id (before.amount t c id)

/-- The four counters of crane `c` count what the event that began at `before` brought. -/
def State.countLine (before t : State) (c : Fin 8) : State :=
  (t.line c).counters.order.foldl (before.countCounter c) t

/-- Every counter counts what the event that began at `before` brought. -/
def State.countInputs (s before : State) : State := allCranes.foldl before.countLine s

/-! ## The end of an event -/

/-- A line that has been noted works out its crane's eligibility, and tells the Dispatcher when the crane was not
eligible before the event and is now (R55, R138). -/
def State.tellLine (before t : State) (c : Fin 8) : State :=
  if t.scratch.told.contains c && !before.eligible c && t.eligible c then t.tellDispatcher else t

/-- The end of an event that began at `before`: evaluations (R44), counters (R148), eligibility (R138), then the
alerts and ATTENTION (R173, R178). -/
def State.finish (s before : State) : State :=
  let t := s.settleEvaluations.countInputs before
  let t := allCranes.foldl (before.tellLine) t
  { t with scratch := .empty }.takeConditions

/-- An event as a whole: what it does, then its end. -/
def State.event (s : State) (f : State → State) : State := (f s).finish s

end Sys2Proof.Machine
end

