-- ==== Sys2Proof/Machine/CraneLine.lean ====
section
/-! DEFINITION. The operations of a Crane Line Controller (Chapters 6 to 8): telegrams out, exchanges, the order in
which waiting work is sent, the course of a trip, stranding, and the reconciliation of the aisle locks (R100). -/

namespace Sys2Proof.Machine

/-! ## Telegrams and exchanges (Section 6.3) -/

/-- A telegram is sent to crane `c`. -/
def State.send (s : State) (c : Fin 8) (t : Telegram) : State :=
  s.updateLine c (fun l => { l with sent := l.sent ++ [t] })

/-- The silence timer starts afresh with the present poll interval (R120, R133). -/
def State.restartSilence (s : State) (c : Fin 8) : State :=
  s.updateLine c (fun l => { l with silence := s.settings.pollInterval })

/-- The first telegram of an exchange is sent, the answer timer running with Tack and the resend count 0 (R118). -/
def State.openExchange (s : State) (c : Fin 8) (kind : ExchangeKind) (t : Telegram) : State :=
  (s.send c t).updateLine c (fun l => { l with exchange := some ⟨kind, t, 0, s.settings.tack⟩ })

/-- The open exchange closes: its answer timer stops and the silence timer starts afresh (R118, R120). -/
def State.closeExchange (s : State) (c : Fin 8) : State :=
  (s.updateLine c (fun l => { l with exchange := none })).restartSilence c

/-- The kind of the line's open exchange. -/
def Line.exchangeKind (l : Line) : Option ExchangeKind := l.exchange.map Exchange.kind

/-- A leg as the ORDER carries it, from its job's record (R125). The target slot is a RELOCATE's. -/
def State.orderLeg (s : State) (l : Leg) : Option OrderLeg :=
  (s.job l.job).map (fun j => ⟨l.index, j.kind, j.aisle, j.slot, j.target⟩)

/-- The ORDER of a trip (R125). -/
def State.orderTelegram (s : State) (t : Trip) : Telegram :=
  .order t.number (t.transfer.map Transfer.toAisle) (t.legs.filterMap s.orderLeg)

/-- A leg whose CANCEL wants sending (R160). -/
def Leg.wantsCancel (l : Leg) : Bool := l.cancelWanted && !l.cancelSent && !l.finished

/-- The first leg of an accepted trip whose CANCEL wants sending (R119, R160). -/
def Line.legToCancel (l : Line) : Option (Nat × Leg) :=
  match l.trip with
  | some t => if t.accepted then (t.legs.find? Leg.wantsCancel).map (fun g => (t.number, g)) else none
  | none => none

/-- The trip whose ORDER has not yet been sent (R119). -/
def Line.tripToOrder (l : Line) : Option Trip :=
  match l.trip with
  | some t => if !t.accepted && !t.orderSent then some t else none
  | none => none

/-- The record indices of a trip's unfinished legs. -/
def Trip.openJobs (t : Trip) : List Nat := (t.legs.filter (fun g => !g.finished)).map Leg.job

/-- Marks a leg of the line's trip. -/
def Line.markLeg (l : Line) (index : Nat) (f : Leg → Leg) : Line :=
  { l with trip := l.trip.map (fun t =>
      { t with legs := t.legs.map (fun g => if g.index = index then f g else g) }) }

/-- When the link is UP and no exchange is open, the waiting work that stands highest is sent (R119): the trip's ORDER,
then the oldest stale CANCEL ALL, then a CANCEL in leg order. -/
def State.sendWaiting (s : State) (c : Fin 8) : State :=
  let l := s.line c
  if l.link = .up ∧ l.exchange = none then
    match l.tripToOrder with
    | some t =>
      (s.updateLine c (fun l => { l with trip := some { t with orderSent := true } })).openExchange c
        (.order t.number) (s.orderTelegram t)
    | none =>
      match l.stale with
      | n :: rest =>
        (s.updateLine c (fun l => { l with stale := rest })).openExchange c (.cancelAll n) (.cancel n 0)
      | [] =>
        match l.legToCancel with
        | some (n, g) =>
          (s.updateLine c (fun l => l.markLeg g.index (fun g => { g with cancelSent := true }))).openExchange c
            (.cancel n g.index) (.cancel n g.index)
        | none => s
  else s

/-- A trip number joins the tail of the list of stale cancels, unless its CANCEL ALL is there or is the open
exchange (R131). -/
def State.listStale (s : State) (c : Fin 8) (n : Nat) : State :=
  if (s.line c).cancelling n then s else s.updateLine c (fun l => { l with stale := l.stale ++ [n] })

/-! ## The course of a trip (Chapter 8) -/

/-- The crane's entry leaves the car queue (R104). -/
def State.leaveQueue (s : State) (c : Fin 8) : State :=
  { s with car := { s.car with queue := s.car.queue.filter (fun e => e.crane != c) } }

/-- The trip record is cleared and the crane's work state becomes IDLE (R153). -/
def State.dropTrip (s : State) (c : Fin 8) : State :=
  s.updateLine c (fun l => { l with trip := none, ctx := { l.ctx with work := .idle } })

/-- What becomes of the transfer of a trip that is cleared (the third column of R154). -/
def State.endTransfer (s : State) (c : Fin 8) (t : Trip) : State :=
  match t.transfer with
  | none => s
  | some x =>
    match x.stage with
    | .toHead => s.releaseLock c x.toAisle
    | .queued => (s.leaveQueue c).releaseLock c x.toAisle
    | .serving => s
    | .done => s

/-- What becomes of the transfer of a trip that is stranded (the last column of R154): every lock is kept. -/
def State.strandTransfer (s : State) (c : Fin 8) (t : Trip) : State :=
  match t.transfer with
  | none => s
  | some x => if x.stage = .queued then s.leaveQueue c else s

/-- The crane line reset effects (R162): the jobs of unfinished legs enter STRANDED, a queued car request is removed,
the trip record is cleared. -/
def State.strandTrip (s : State) (c : Fin 8) : State :=
  match (s.line c).trip with
  | none => s
  | some t =>
    ((t.openJobs.foldl State.enterStranded s).strandTransfer c t).dropTrip c

/-- Cancel wanted is set on each unfinished leg whose job's withdraw requested is SET (R126, R164). -/
def State.wantCancels (s : State) (legs : List Leg) : List Leg :=
  legs.map (fun g =>
    match s.job g.job with
    | some j => if j.withdrawRequested && !g.finished then { g with cancelWanted := true } else g
    | none => g)

/-- The jobs of a trip enter ACTIVE with their assignment kept (R7, R126). -/
def State.activate (s : State) (jobs : List Nat) : State :=
  jobs.foldl (fun t i => t.updateJob i (fun j => { j with state := .active })) s

/-- The ORDER exchange ends ACCEPTED (R126). -/
def State.acceptOrder (s : State) (c : Fin 8) (t : Trip) : State :=
  let u := ((s.closeExchange c).activate t.openJobs).updateLine c (fun l =>
    { l with trip := some { t with accepted := true, legs := s.wantCancels t.legs },
             ctx := { l.ctx with work := .busy } })
  u.noteInput c 1

/-- The effects particular to a refusal on one job of the trip (R128): its refusal count, and for CANNOT its excluded
cranes. -/
def Job.refused (j : Job) (c : Fin 8) (r : NakReason) : Job :=
  { j with
    refusals := min 255 (j.refusals + 1)
    excluded := if r = .cannot then j.excluded ||| craneBit c else j.excluded }

/-- The effect of a refusal on the line (R128). -/
def Line.refused (l : Line) (r : NakReason) : Line :=
  match r with
  | .manual => { l with ctx := { l.ctx with mode := .manual } }
  | .fault => { l with ctx := { l.ctx with nakFault := true } }
  | .busy => { l with notReady := true }
  | .cannot => l

/-- The ORDER exchange ends REFUSED with a reason, or DISCARDED without one: the trip is dissolved (R127, R128). -/
def State.dissolveTrip (s : State) (c : Fin 8) (t : Trip) (reason : Option NakReason) : State :=
  let u := (((s.closeExchange c).noteInput c 7).endTransfer c t).dropTrip c
  let u := t.openJobs.foldl State.enterReady u
  match reason with
  | none => u
  | some r => (t.openJobs.foldl (fun v i => v.updateJob i (fun j => j.refused c r)) u).updateLine c (fun l => l.refused r)

/-- When every leg of the trip is finished, the trip is cleared (R158). -/
def State.clearIfOver (s : State) (c : Fin 8) : State :=
  match (s.line c).trip with
  | none => s
  | some t => if t.legs.all Leg.finished then (s.endTransfer c t).dropTrip c else s

/-- A leg's finished mark is set. -/
def State.finishLeg (s : State) (c : Fin 8) (index : Nat) : State :=
  s.updateLine c (fun l => l.markLeg index (fun g => { g with finished := true }))

/-- A counter input occurs when there is one. -/
def State.noteMaybe (s : State) (c : Fin 8) : Option Nat → State
  | none => s
  | some code => s.noteInput c code

/-- A leg is ended by the crane's report (R157). -/
def State.endLeg (s : State) (c : Fin 8) (g : Leg) (outcome position : Nat) : State :=
  match s.job g.job with
  | none => (s.finishLeg c g.index).clearIfOver c
  | some j =>
    let r := legReport j.kind outcome position
    ((((s.finishLeg c g.index).noteMaybe c (legInput j.kind r)).applyReport g.job r)).clearIfOver c

/-- A leg is ended by a CANCEL ANSWER of TAKEN (R160): its job enters DONE WITHDRAWN. -/
def State.takeBackLeg (s : State) (c : Fin 8) (g : Leg) : State :=
  ((s.finishLeg c g.index).withdrawNow g.job).clearIfOver c

/-- A late LEG DONE is applied to STRANDED job `i` (R166). -/
def State.lateReport (s : State) (c : Fin 8) (i : Nat) (j : Job) (outcome position : Nat) : State :=
  let r := legReport j.kind outcome position
  (s.noteMaybe c (legInput j.kind r)).applyReport i r

/-! ## The link (Section 6.2) -/

def State.setLink (s : State) (c : Fin 8) (k : LinkState) : State :=
  s.updateLine c (fun l => { l with link := k })

/-- What a line loses when its link leaves UP, or when its crane starts afresh: any open exchange, without outcome,
and the list of stale cancels (R119, R121, R131, R134). -/
def State.dropExchanges (s : State) (c : Fin 8) : State :=
  (s.closeExchange c).updateLine c (fun l => { l with stale := [] })

/-- An exchange fails: the link becomes LOST, which raises CRANE_LOST, and the trip is stranded (R118, R130, R162). -/
def State.loseLink (s : State) (c : Fin 8) : State :=
  (((s.dropExchanges c).strandTrip c).setLink c .lost).raise .craneLost

/-- The introduction fails (R124): its timer stops, RESTART is sent, the link becomes ABSENT, and the marks of R99
and R163 are cleared. -/
def State.failIntroduction (s : State) (c : Fin 8) : State :=
  (s.send c .restart).updateLine c (fun l =>
    { l with link := .absent, introTimer := none, reconcileDue := false, strandedCheck := false })

/-- The introduction is completed (R124): the link becomes UP, which raises INTRO, the crane is IDLE, and the marks of
R99 and R163 are set. -/
def State.completeIntroduction (s : State) (c : Fin 8) : State :=
  ((s.updateLine c (fun l =>
    { l with link := .up, introTimer := none, reconcileDue := true, strandedCheck := true,
             ctx := { l.ctx with work := .idle } })).restartSilence c).raise .intro

/-- A telegram is discarded on the crane line as a bad frame event (R115). -/
def State.badFrame (s : State) (c : Fin 8) : State := s.noteInput c 8

/-! ## Reconciliation of the aisle locks (Section 5.3) -/

/-- Step 1 of R100: crane `c`, reporting itself in `z`, has or gets the lock of `z`. -/
def State.getsLock (s : State) (c : Fin 8) (z : Fin 16) : Bool :=
  match (s.aisle z).lock with
  | none => true
  | some d => d == c || (s.line d).link == .lost || (s.line d).link == .absent

/-- The destinations whose lock a reconciled crane keeps (step 2 of R100). -/
def State.keptDestinations (s : State) (c : Fin 8) (rebuilt : Option (Fin 16)) : List (Fin 16) :=
  (match (s.line c).trip with
    | some t => (t.transfer.map Transfer.toAisle).toList
    | none => []) ++
  (match s.car.current with
    | some r => if r.crane = c then [r.toAisle] else []
    | none => []) ++ rebuilt.toList

/-- R100 for crane `c` reporting aisle `z`; `rebuilt` is the aisle of the jobs from which the same STATUS rebuilds a
trip. -/
def State.settleLocks (s : State) (c : Fin 8) (z : Fin 16) (rebuilt : Option (Fin 16)) : State :=
  if s.getsLock c z then
    let kept := s.keptDestinations c rebuilt
    let t := s.setLock z (some c)
    let t := allAisles.foldl (fun t a => if a = z ∨ a ∈ kept then t else t.releaseLock c a) t
    t.updateCtx c (fun x => { x with conflict := false })
  else if (s.line c).ctx.conflict then s
  else (s.updateCtx c (fun x => { x with conflict := true })).raise .craneFault

end Sys2Proof.Machine
end

