-- ==== Sys2Proof/Machine/Dispatcher.lean ====
section
/-! DEFINITION. The Dispatcher (Chapter 3): hold filters, candidates, pricing, dual cycles, the order of candidates,
assignment, and the dispatch pass. -/

namespace Sys2Proof.Machine

/-! ## Hold filters (R58) -/

/-- An enabled entry matches a job's attribute: the bits whose mask bit is 1 agree (R58). -/
def HoldFilter.holds (f : HoldFilter) (attr : Half) : Bool :=
  f.enabled && (attr &&& f.mask) == (f.argument &&& f.mask)

/-- The attribute that holding looks at: a relocation's is its dependent's while its link stands (R57, R24). -/
def State.heldAttribute (s : State) (j : Job) : Half :=
  match j.kind, j.link with
  | .relocate, some d =>
    match s.job d with
    | some k => k.attr
    | none => j.attr
  | _, _ => j.attr

/-- The job is held by the hold filters (R58). -/
def State.jobHeld (s : State) (j : Job) : Bool := s.disp.filters.toList.any (fun f => f.holds (s.heldAttribute j))

/-! ## Candidates (R56, R57) -/

/-- A slot is a REAR slot. -/
def isRear (p : Option SlotPos) : Bool :=
  match p with
  | some q => q.depth == .rear
  | none => false

/-- Job `j` is a candidate for crane `c` (the eight steps of R56, with R57 for a RELOCATE). -/
def State.candidateFor (s : State) (c : Fin 8) (j : Job) : Bool :=
  let x := (s.line c).ctx
  j.state == .ready && !s.jobHeld j && (s.aisle j.aisle).enabled == some true &&
    ((s.aisle j.aisle).lock == none || s.holdsLock c j.aisle) &&
    (match x.classes with | some k => k.getLsbD j.loadClass | none => false) &&
    !j.excluded.getLsbD c.val &&
    ((!isRear j.slot && !isRear j.target) || x.forkDepth == some 2) &&
    (match j.kind, j.group with | .retrieve, some m => s.insideWindow m | _, _ => true)

/-! ## Pricing (Section 3.4) -/

/-- The five timing parameters of a crane (R62). -/
structure Timing where
  h : Nat
  v : Nat
  a : Nat
  fF : Nat
  fR : Nat
  deriving DecidableEq, Repr

/-- The timing parameters a crane context holds. They are all present once a crane's link has been UP (R124). -/
def Context.timing (x : Context) : Option Timing :=
  match x.h, x.v, x.a, x.fF, x.fR with
  | some h, some v, some a, some fF, some fR => some ⟨h, v, a, fF, fR⟩
  | _, _, _, _, _ => none

/-- The move time M(p, q) between two positions (bay, level) of one aisle (R62). -/
def Timing.move (k : Timing) (p q : Nat × Nat) : Nat :=
  if p = q then 0 else k.a + max (apart p.1 q.1 * k.h) (apart p.2 q.2 * k.v)

/-- The fork time at a slot (R62). -/
def Timing.fork (k : Timing) (p : SlotPos) : Nat :=
  match p.depth with
  | .front => k.fF
  | .rear => k.fR

/-- The position of a slot. -/
def SlotPos.at (p : SlotPos) : Nat × Nat := (p.bay, p.level)

/-- The I/O point (Section 0.6). -/
def ioPoint : Nat × Nat := (0, 0)

/-- The start position P of a crane standing in an aisle with geometry `g` (R63). -/
def Context.startPosition (x : Context) (g : Geometry) : Nat × Nat :=
  match x.referenced, x.position with
  | true, some p => (min p.1 (g.bays - 1), min p.2 (g.levels - 1))
  | _, _ => (g.bays - 1, g.levels - 1)

/-- The number n of transfer requests ahead at the car (R64). -/
def State.carLoad (s : State) : Nat := s.car.queue.length + s.car.current.isSome.toNat

/-- The approach to aisle `y` and the position S0 the trip starts from (R64), for a crane in aisle `x` at `p`. -/
def State.approach (s : State) (k : Timing) (x y : Fin 16) (p : Nat × Nat) : Nat × (Nat × Nat) :=
  if x = y then (0, p)
  else (k.move p ioPoint + s.car.c0 + apart x.val y.val * s.car.c1 + s.carLoad * s.disp.weights.u, ioPoint)

/-- What the price of a trip depends on besides its slots: the crane's timing, and the approach with its start. -/
structure Approach where
  timing : Timing
  time : Nat
  start : Nat × Nat
  deriving DecidableEq, Repr

/-- The approach of crane `c` to aisle `y`, absent for a crane that is in no configured aisle. -/
def State.approachOf (s : State) (c : Fin 8) (y : Fin 16) : Option Approach :=
  let x := (s.line c).ctx
  match x.timing, x.aisle with
  | some k, .inAisle a =>
    match (s.aisle a).geometry with
    | some g =>
      let r := s.approach k a y (x.startPosition g)
      some ⟨k, r.1, r.2⟩
    | none => none
  | _, _ => none

/-- The trip time T of a STORE to `p` (R65). -/
def Approach.storeTime (q : Approach) (p : SlotPos) : Nat :=
  q.time + q.timing.move q.start ioPoint + q.timing.fF + q.timing.move ioPoint p.at + q.timing.fork p

/-- The trip time T of a RETRIEVE from `p` (R65). -/
def Approach.retrieveTime (q : Approach) (p : SlotPos) : Nat :=
  q.time + q.timing.move q.start p.at + q.timing.fork p + q.timing.move p.at ioPoint + q.timing.fF

/-- The trip time T of a RELOCATE from `p` to `t` (R65). -/
def Approach.relocateTime (q : Approach) (p t : SlotPos) : Nat :=
  q.time + q.timing.move q.start p.at + q.timing.fork p + q.timing.move p.at t.at + q.timing.fork t

/-- The trip time T of a dual: a STORE to `p`, then a RETRIEVE from `r` (R65). -/
def Approach.dualTime (q : Approach) (p r : SlotPos) : Nat :=
  q.storeTime p + q.timing.move p.at r.at + q.timing.fork r + q.timing.move r.at ioPoint + q.timing.fF

/-- The trip time of a single job (R65). -/
def Approach.singleTime (q : Approach) (j : Job) : Option Nat :=
  match j.kind, j.slot, j.target with
  | .store, some p, _ => some (q.storeTime p)
  | .retrieve, some p, _ => some (q.retrieveTime p)
  | .relocate, some p, some t => some (q.relocateTime p t)
  | _, _, _ => none

/-- The per-pallet time of a single job (R66). -/
def singlePrice (t : Nat) : Nat := min Config.pricedTimeCeiling t

/-- The per-pallet time of a dual: half the trip time, rounded up (R66). -/
def dualPrice (t : Nat) : Nat := min Config.pricedTimeCeiling ((t + 1) / 2)

/-- The credits A + P + H of a job's own age, priority and place in its group (R67). -/
def State.ownCredits (s : State) (j : Job) : Nat :=
  let w := s.disp.weights
  min Config.ageCreditCeiling (j.age * w.wa) + j.priority * w.wp +
    (match j.kind, j.group with
      | .retrieve, some m => if s.headOfSequence m then w.wh else 0
      | _, _ => 0)

/-- The credits of a job: a relocation whose link stands takes its dependent's (R67). -/
def State.credits (s : State) (j : Job) : Nat :=
  match j.kind, j.link with
  | .relocate, some d =>
    match s.job d with
    | some k => s.ownCredits k
    | none => s.ownCredits j
  | _, _ => s.ownCredits j

/-- A priced candidate trip: its crane, its aisle, the record indices of its legs in leg order, its score, and what
R72 compares. -/
structure Candidate where
  crane : Fin 8
  aisle : Fin 16
  legs : List Nat
  score : Int
  age : Nat
  low : Nat
  high : Nat
  deriving DecidableEq, Repr

/-- Candidate `x` comes before `y`: the lower score, then the order of R72. -/
def Candidate.better (x y : Candidate) : Bool :=
  if x.score ≠ y.score then x.score < y.score
  else if x.age ≠ y.age then y.age < x.age
  else if x.low ≠ y.low then x.low < y.low
  else if x.legs.length ≠ y.legs.length then x.legs.length < y.legs.length
  else if x.crane ≠ y.crane then x.crane < y.crane
  else x.high < y.high

/-- The single candidate of record `i` for crane `c`, priced (R65, R66, R68), when it is one. -/
def State.singleCandidate (s : State) (c : Fin 8) (e : Nat × Job) : Option Candidate :=
  let j := e.2
  if s.candidateFor c j then
    match (s.approachOf c j.aisle).bind (fun q => q.singleTime j) with
    | some t => some ⟨c, j.aisle, [e.1], (singlePrice t : Int) - s.credits j, j.age, e.1, e.1⟩
    | none => none
  else none

/-- The single candidates of crane `c`. -/
def State.singles (s : State) (c : Fin 8) : List Candidate := s.jobs.filterMap (s.singleCandidate c)

/-- The kind of the job of a single candidate is `k`. -/
def State.legKind (s : State) (k : JobKind) (x : Candidate) : Bool :=
  match s.job x.low with
  | some j => j.kind == k
  | none => false

/-- The four single candidates of a kind in an aisle with the lowest scores, ties settled by R72 (R69). -/
def State.bestFour (s : State) (singles : List Candidate) (a : Fin 16) (k : JobKind) : List Candidate :=
  (sortBy Candidate.better (singles.filter (fun x => x.aisle == a && s.legKind k x))).take 4

/-- The dual candidate of a STORE and a RETRIEVE that are single candidates of crane `c` (R65, R66, R68). -/
def State.dualCandidate (s : State) (c : Fin 8) (x y : Candidate) : Option Candidate :=
  match s.job x.low, s.job y.low with
  | some j1, some j2 =>
    match s.approachOf c j1.aisle, j1.slot, j2.slot with
    | some q, some p, some r =>
      some ⟨c, j1.aisle, [x.low, y.low],
        (dualPrice (q.dualTime p r) : Int) - max (s.credits j1) (s.credits j2),
        max j1.age j2.age, min x.low y.low, max x.low y.low⟩
    | _, _, _ => none
  | _, _ => none

/-- The dual candidates of crane `c` (R69). -/
def State.duals (s : State) (c : Fin 8) (singles : List Candidate) : List Candidate :=
  if s.disp.weights.dual && (s.line c).ctx.dualCapable == some true then
    allAisles.flatMap (fun a =>
      (s.bestFour singles a .store).flatMap (fun x =>
        (s.bestFour singles a .retrieve).filterMap (fun y => s.dualCandidate c x y)))
  else []

/-- Every candidate of a round (step 1 of R71). -/
def State.candidates (s : State) : List Candidate :=
  allCranes.flatMap (fun c =>
    if s.eligible c then
      let singles := s.singles c
      singles ++ s.duals c singles
    else [])

/-- The best candidate of a round (step 3 of R71). -/
def bestCandidate : List Candidate → Option Candidate
  | [] => none
  | x :: xs =>
    match bestCandidate xs with
    | none => some x
    | some y => if y.better x then some y else some x

/-- The lowest score of the candidates of a round that contain job `i`. -/
def lowestScore (i : Nat) : List Candidate → Option Int
  | [] => none
  | x :: xs =>
    match lowestScore i xs with
    | none => if x.legs.contains i then some x.score else none
    | some n => if x.legs.contains i then some (min x.score n) else some n

/-- Step 2 of R71: the last score of every job that a candidate of the round contains. -/
def State.writeScores (s : State) (cands : List Candidate) : State :=
  { s with jobs := s.jobs.map (fun e =>
      match lowestScore e.1 cands with
      | some n => (e.1, { e.2 with lastScore := some n })
      | none => e) }

/-! ## Assignment (R73, R74, R75) -/

/-- The legs of a new trip, numbered from 1 in leg order (R73). -/
def numberLegs (k : Nat) : List Nat → List Leg
  | [] => []
  | i :: rest => ⟨k, i, false, false, false⟩ :: numberLegs (k + 1) rest

/-- The jobs of a trip enter ORDERED with their assignment (R75). -/
def State.orderJobs (s : State) (c : Fin 8) (n : Nat) (legs : List Leg) : State :=
  legs.foldl (fun t g => t.updateJob g.job (fun j =>
    { j with state := .ordered, assignment := some ⟨c, n, g.index⟩ })) s

/-- The transfer a trip of crane `c` in aisle `y` needs (R74). -/
def State.transferTo (s : State) (c : Fin 8) (y : Fin 16) : Option Transfer :=
  match (s.line c).ctx.aisle with
  | .inAisle x => if x = y then none else some ⟨some x, y, .toHead⟩
  | .onCar => none
  | .unknown => none

/-- Assigns a candidate to its crane: the trip record, the aisle lock, the jobs, the work state and the ORDER exchange
(R73, R74, R75). -/
def State.assign (s : State) (x : Candidate) : State :=
  match s.nextTripNumber x.crane with
  | none => s
  | some n =>
    let legs := numberLegs 1 x.legs
    let trip : Trip := ⟨n, legs, s.transferTo x.crane x.aisle, false, false⟩
    let t := s.setLock x.aisle (some x.crane)
    let t := t.orderJobs x.crane n legs
    let t := t.updateLine x.crane (fun l =>
      { l with trip := some trip, lastTrip := n, ctx := { l.ctx with work := .ordering } })
    t.sendWaiting x.crane

/-- The rounds of a dispatch pass (R71). A pass assigns at most eight trips, so eight rounds with a candidate are the
most there are. -/
def State.rounds (s : State) : Nat → State
  | 0 => s
  | fuel + 1 =>
    let cands := s.candidates
    match bestCandidate cands with
    | none => s
    | some x => ((s.writeScores cands).assign x).rounds fuel

/-- A dispatch pass for one of the triggers told (R70, R71). -/
def State.dispatchPass (s : State) : State :=
  ({ s with disp := { s.disp with passesDue := s.disp.passesDue - 1 } }).rounds 8

end Sys2Proof.Machine
end

