-- ==== Sys2Proof/Machine/CarLine.lean ====
section
/-! DEFINITION. The Car Line Controller (Chapter 5): its exchanges, the car queue, serving a transfer, the phases, the
car job timer, losing and restarting the line. -/

namespace Sys2Proof.Machine

def State.updateCar (s : State) (f : Car → Car) : State := { s with car := f s.car }

/-- A telegram is sent to the car. -/
def State.sendCar (s : State) (t : CarTelegram) : State := s.updateCar (fun k => { k with sent := k.sent ++ [t] })

/-- The silence timer of the car line starts afresh (R102, R133). -/
def State.restartCarSilence (s : State) : State :=
  s.updateCar (fun k => { k with silence := s.settings.pollInterval })

/-- The first telegram of a car exchange is sent (R102). -/
def State.openCarExchange (s : State) (isOrder : Bool) (t : CarTelegram) : State :=
  (s.sendCar t).updateCar (fun k => { k with exchange := some ⟨isOrder, t, 0, s.settings.tack⟩ })

/-- The open car exchange closes. -/
def State.closeCarExchange (s : State) : State :=
  (s.updateCar (fun k => { k with exchange := none })).restartCarSilence

/-- The open car exchange is a CAR ORDER. -/
def Car.orderOpen (k : Car) : Bool :=
  match k.exchange with
  | some x => x.isOrder
  | none => false

/-- The open car exchange is a POLL. -/
def Car.pollOpen (k : Car) : Bool :=
  match k.exchange with
  | some x => !x.isOrder
  | none => false

/-- The CAR ORDER of a request (R105). -/
def CurrentRequest.telegram (r : CurrentRequest) : CarTelegram := .order r.order r.crane r.fromAisle r.toAisle

/-- The waiting CAR ORDER is sent when the link is UP and no exchange is open (R102). -/
def State.sendWaitingCar (s : State) : State :=
  match s.car.current with
  | none => s
  | some r =>
    if s.car.orderWaiting ∧ s.car.link = .up ∧ s.car.exchange = none then
      (s.updateCar (fun k => { k with orderWaiting := false })).openCarExchange true r.telegram
    else s

/-! ## Transfers and the queue -/

/-- The crane holds a trip whose number is `n`. -/
def Line.holdsTrip (l : Line) (n : Nat) : Bool :=
  match l.trip with
  | some t => t.number == n
  | none => false

/-- The number of the crane's trip, 0 when it holds none. -/
def Line.tripNumber (l : Line) : Nat :=
  match l.trip with
  | some t => t.number
  | none => 0

/-- Changes the transfer of the crane's trip, when it has one. -/
def State.updateTransfer (s : State) (c : Fin 8) (f : Transfer → Transfer) : State :=
  s.updateLine c (fun l => { l with trip := l.trip.map (fun t => { t with transfer := t.transfer.map f }) })

/-- The next car order number: 1 to 255 and round, passing over the order in hand stored from the last CAR STATUS
(R105). -/
def nextOrderNumber (n inHand : Nat) : Nat :=
  let m := n % 255 + 1
  if m = inHand then m % 255 + 1 else m

/-- The conditions under which the queue is served (R105). -/
def Car.mayServe (k : Car) : Bool :=
  k.work == .idle && k.link == .up && !k.notReady && k.mode == .auto && !k.fault && k.configured

/-- Serves the queue when R105 allows: the head entry becomes the current request and its CAR ORDER is sent. -/
def State.serveQueue (s : State) : State :=
  match s.car.queue with
  | [] => s
  | e :: rest =>
    if s.car.mayServe then
      let n := nextOrderNumber s.car.orderNumber s.car.orderInHand
      let t := s.updateCar (fun k =>
        { k with
          queue := rest
          current := some ⟨n, e.crane, e.fromAisle, e.toAisle, (s.line e.crane).tripNumber⟩
          orderNumber := n
          work := .ordering
          orderWaiting := true })
      (t.updateTransfer e.crane (fun x => { x with stage := .serving })).sendWaitingCar
    else s

/-- Crane `c`, at the head of aisle `x` with an accepted trip whose transfer is at TO_HEAD, joins the car queue, which
is then served if it may be; when `x` is already where the transfer leads, the stage becomes DONE (R104). The transfer's
from aisle takes `x` in this case too, which R104 and R154 leave open (DESIGN CHOICE, assumption 35). -/
def State.joinQueue (s : State) (c : Fin 8) (x : Fin 16) : State :=
  match (s.line c).trip with
  | none => s
  | some t =>
    match t.transfer with
    | none => s
    | some y =>
      if t.accepted ∧ y.stage = .toHead ∧ ¬ s.beingCarried c then
        if x = y.toAisle then s.updateTransfer c (fun y => { y with fromAisle := some x, stage := .done })
        else
          let t := s.updateTransfer c (fun y => { y with fromAisle := some x, stage := .queued })
          (t.updateCar (fun k => { k with queue := k.queue ++ [⟨c, x, y.toAisle⟩] })).serveQueue
      else s

/-! ## The car job timer (R109) -/

/-- The car job timer expires: the overdue flag is set and CAR raised. It does not expire again in a transfer. -/
def State.expireCarJob (s : State) : State :=
  if s.car.overdue then s else (s.updateCar (fun k => { k with overdue := true })).raise .car

/-- The timer expires when it stands at or beyond the timeout. -/
def State.checkCarJob (s : State) : State :=
  match s.car.jobTimer with
  | none => s
  | some n => if s.car.timeout * 10 ≤ n then s.expireCarJob else s

/-- A tenth of a second of a running transfer (assumption 9). -/
def State.countCarJob (s : State) : State :=
  (s.updateCar (fun k => { k with jobTimer := k.jobTimer.map (· + 1) })).checkCarJob

/-! ## Answers and phases (R106, R108) -/

/-- The current request carries order number `n`. -/
def Car.isCurrent (k : Car) (n : Nat) : Bool :=
  match k.current with
  | some r => r.order == n
  | none => false

/-- The car has answered for the current request (R106): an open CAR ORDER exchange closes, and in ORDERING the work
state becomes FETCHING, the car job timer starts (R109) and no CAR ORDER waits to be sent again (assumption 21). -/
def State.answerCarOrder (s : State) : State :=
  let t := if s.car.orderOpen then s.closeCarExchange else s
  if s.car.work = .ordering then
    t.updateCar (fun k => { k with work := .fetching, jobTimer := some 0, orderWaiting := false })
  else t

/-- The place of a phase in their order (R108). -/
def CarPhase.rank : CarPhase → Nat
  | .dockedFrom => 1
  | .boarded => 2
  | .dockedTo => 3
  | .alighted => 4

/-- The phase a car work state stands at (R108). -/
def CarWork.rank : CarWork → Nat
  | .idle => 0
  | .ordering => 0
  | .fetching => 0
  | .boarding => 1
  | .carrying => 2
  | .alighting => 3

/-- The effects of ALIGHTED for the current request `r` (R108, R101). -/
def State.alight (s : State) (r : CurrentRequest) : State :=
  let c := r.crane
  let t := s.updateCar (fun k => { k with work := .idle })
  let t := t.updateCtx c (fun x => { x with aisle := .inAisle r.toAisle, position := some (0, 0) })
  let t := t.settleLocks c r.toAisle none
  let t := if (t.line c).holdsTrip r.trip then t.updateTransfer c (fun y => { y with stage := .done }) else t
  let t := t.noteInput c 9
  let t := t.updateCar (fun k =>
    { k with position := some r.toAisle, jobTimer := none, overdue := false, current := none, orderWaiting := false })
  (t.noteLine c).serveQueue

/-- The effects of one phase for the current request `r` (R108). -/
def State.applyPhase (s : State) (r : CurrentRequest) : CarPhase → State
  | .dockedFrom => s.updateCar (fun k => { k with work := .boarding })
  | .boarded =>
    ((s.updateCar (fun k => { k with work := .carrying })).releaseLock r.crane r.fromAisle).updateCtx r.crane
      (fun x => { x with aisle := .onCar })
  | .dockedTo => s.updateCar (fun k => { k with work := .alighting })
  | .alighted => s.alight r

/-- Every phase in order. -/
def allCarPhases : List CarPhase := [.dockedFrom, .boarded, .dockedTo, .alighted]

/-- A reported phase of order number `n`: each phase beyond the one the work state stands at, up to the one reported,
is applied in order (R108). -/
def State.applyPhases (s : State) (n : Nat) (p : CarPhase) : State :=
  match s.car.current with
  | none => s
  | some r =>
    if r.order = n then
      (allCarPhases.filter (fun q => s.car.work.rank < q.rank && q.rank ≤ p.rank)).foldl
        (fun t q => t.applyPhase r q) s
    else s

/-! ## Car telegrams -/

/-- A CAR ACK taken while the link is UP: it answers an open CAR ORDER exchange, and is ignored when none is open
(R106). -/
def State.takeCarAck (s : State) (n : Nat) : State :=
  if s.car.isCurrent n && s.car.orderOpen then s.answerCarOrder.sendWaitingCar else s

/-- A telegram other than CAR STATUS is discarded while the car link is not UP (R102); otherwise it restarts the silence
timer and is taken. -/
def State.carTelegram (s : State) (taken : State → State) : State :=
  if s.car.link = .up then taken s.restartCarSilence else s

/-- A PHASE taken while the link is UP (R106, R108). -/
def State.takePhase (s : State) (n : Nat) (p : CarPhase) : State :=
  if s.car.isCurrent n then (s.answerCarOrder.applyPhases n p).sendWaitingCar else s

/-- What the reason of a CAR NAK changes in the stored state (R107). -/
def State.storeRefusal (s : State) (r : CarRefusal) : State :=
  let t := s.updateCar (fun k => { k with lastRefusal := some r, notReady := true })
  match r with
  | .busy => t
  | .manual => t.updateCar (fun k => { k with mode := .manual })
  | .fault => if t.car.fault then t else (t.updateCar (fun k => { k with fault := true })).raise .car

/-- A refused request goes back to the head of the queue when its trip still stands, and is dropped otherwise (R107). The
drop tells no pass of its own when no lock is released, though the crane may have become eligible by it, since R70 does not
name this cause (DEDUCED, assumption 30). -/
def State.returnRequest (s : State) (r : CurrentRequest) : State :=
  let t := s.updateCar (fun k => { k with current := none, work := .idle, orderWaiting := false })
  if (t.line r.crane).holdsTrip r.trip then
    let t := t.updateCar (fun k => { k with queue := ⟨r.crane, r.fromAisle, r.toAisle⟩ :: k.queue })
    (t.updateTransfer r.crane (fun y => { y with stage := .queued })).serveQueue
  else if (t.strandedTrip r.crane r.trip).isEmpty then t.releaseLock r.crane r.toAisle
  else t

/-- A CAR NAK taken while the link is UP (R107). -/
def State.takeCarNak (s : State) (n : Nat) (reason : CarRefusal) : State :=
  match s.car.current with
  | none => s
  | some r =>
    if r.order = n ∧ s.car.work = .ordering then
      ((if s.car.orderOpen then s.closeCarExchange else s).storeRefusal reason).returnRequest r
    else s

/-- The stored state of a CAR STATUS (R103): a fault that comes to be set raises CAR, and the not-ready mark is
lifted when the report shows order in hand 0, AUTO and no fault. -/
def State.storeCarReport (s : State) (r : CarReport) : State :=
  let newFault := r.fault && !s.car.fault
  let t := s.updateCar (fun k =>
    { k with
      link := .up
      mode := r.mode
      position := some r.position
      fault := r.fault
      orderInHand := r.order
      notReady := k.notReady && !(r.order == 0 && r.mode == .auto && !r.fault) })
  if newFault then t.raise .car else t

/-- A CAR STATUS answers for the current request when its order in hand is the request's number, and its last phase is
applied (R103, R106, R108). -/
def State.answerByReport (s : State) (r : CarReport) : State :=
  if s.car.isCurrent r.order then
    match r.lastPhase with
    | some p => s.answerCarOrder.applyPhases r.order p
    | none => s.answerCarOrder
  else s

/-- When the report has brought the car back and has not answered for its current request, the CAR ORDER is sent again
with the same number (R110). -/
def State.reorder (s : State) (wasUp answered : Bool) : State :=
  if !wasUp && !answered && s.car.current.isSome then
    (s.updateCar (fun k => { k with orderWaiting := true })).sendWaitingCar
  else s

/-- A CAR STATUS is taken (R103, R110). -/
def State.takeCarStatus (s : State) (r : CarReport) : State :=
  let wasUp := s.car.link == .up
  let answered := s.car.isCurrent r.order
  let t := if s.car.pollOpen then s.closeCarExchange else s
  (((t.storeCarReport r).answerByReport r).reorder wasUp answered).sendWaitingCar.serveQueue

/-- The car line loses its exchange, and the current request's CAR ORDER waits no longer: it is sent again on the
car's return (R110). -/
def State.dropCarExchange (s : State) : State :=
  s.closeCarExchange.updateCar (fun k => { k with orderWaiting := false })

/-- A car line exchange fails (R110): the link becomes LOST, which raises CAR. -/
def State.loseCarLink (s : State) : State :=
  (s.dropCarExchange.updateCar (fun k => { k with link := .lost })).raise .car

/-- A POLL is sent on the car line after a poll interval of silence (R102): as an exchange while UP, otherwise without
one. -/
def State.pollCar (s : State) : State :=
  if s.car.link = .up then
    if s.car.exchange = none then s.openCarExchange false .poll else s
  else (s.sendCar .poll).restartCarSilence

/-- The answer timer of the car line expires (R102). -/
def State.expireCarAnswer (s : State) : State :=
  match s.car.exchange with
  | none => s
  | some x =>
    if x.resends < s.settings.resendLimit then
      (s.sendCar x.telegram).updateCar (fun k =>
        { k with exchange := some { x with resends := x.resends + 1, period := s.settings.tack } })
    else s.loseCarLink

/-- RESTART CAR LINE (R111). -/
def State.restartCar (s : State) : State :=
  (s.sendCar .restart).dropCarExchange.updateCar (fun k => { k with link := .absent, notReady := false })

end Sys2Proof.Machine
end

