-- ==== Sys2Proof/Machine/CraneTelegrams.lean ====
section
/-! DEFINITION. What each crane telegram does at its line (Sections 6.1, 6.4 to 6.6, 7.2 and Chapter 8), and the
meanings of the rows BASE_PAGE to CANCEL_ANSWER of the table. -/

namespace Sys2Proof.Machine

/-! ## Reception by link state (R116) -/

/-- A telegram other than PAGE is taken (R116): the silence timer restarts; an ABSENT or LOST crane is answered with
RESTART, an INTRODUCING one not at all, and while UP `taken` gives what the telegram does. Waiting work is then sent,
after all that the telegram does (R119 does not say when within an event: DESIGN CHOICE, assumption 36), and the crane's
eligibility worked out. -/
def State.craneTelegram (s : State) (c : Fin 8) (taken : State → State) : State :=
  let t := s.restartSilence c
  match (t.line c).link with
  | .absent => t.send c .restart
  | .lost => t.send c .restart
  | .introducing => t
  | .up => ((taken t).sendWaiting c).noteLine c

/-! ## Introduction (Section 6.4) -/

/-- A value of a page brought into its range (R123): the value, and whether it was brought to a bound. -/
def clampPage (low high n : Nat) : Nat × Bool := (clampTo low high n, decide (n < low ∨ high < n))

/-- What a base page gives the crane context (R121, R137). -/
def Context.basePage (x : Context) (content : BitVec 64) (dual : Bool) : Context :=
  let fork := clampPage 1 2 (pageByte content 4)
  { x with
    protocolLevel := some (pageByte content 0)
    serial := some (pageWord content 1)
    dualCapable := some dual
    forkDepth := some fork.1
    name := none
    clamped := fork.2
    aisle := .unknown
    atHead := false
    active := 0
    nakFault := false
    referenced := false }

/-- A base page is taken (R121): the crane line reset effects, the introduction's start, and PAGE ACK 0. A base page
whose more flag is clear fails the introduction at once (R124). -/
def State.takeBasePage (s : State) (c : Fin 8) (more dual : Bool) (content : BitVec 64) : State :=
  let t := (((s.restartSilence c).strandTrip c).dropExchanges c).updateLine c (fun l =>
    { l with
      link := .introducing
      introTimer := some Config.introductionPeriod
      pagesTaken := 0
      lastToggle := false
      notReady := false
      ctx := l.ctx.basePage content dual })
  let t := t.send c (.pageAck false)
  if more then t else t.failIntroduction c

/-- The content of a next page applied at its place (R122, R123). -/
def Context.nextPage (x : Context) (place : Nat) (content : BitVec 64) : Context :=
  if place = 1 then
    let h := clampPage 10 2000 (pageWord content 0)
    let v := clampPage 10 5000 (pageWord content 2)
    let a := clampPage 0 10000 (pageWord content 4)
    { x with h := some h.1, v := some v.1, a := some a.1, clamped := x.clamped || h.2 || v.2 || a.2 }
  else if place = 2 then
    let fF := clampPage 1000 30000 (pageWord content 0)
    let fR := clampPage 1000 40000 (pageWord content 2)
    { x with
      fF := some fF.1, fR := some fR.1, classes := some (BitVec.ofNat 16 (pageWord content 4))
      clamped := x.clamped || fF.2 || fR.2 }
  else { x with name := some content }

/-- A next page taken while INTRODUCING (R122, R124). -/
def State.takeNextPage (s : State) (c : Fin 8) (toggle more : Bool) (content : BitVec 64) : State :=
  let l := s.line c
  let place := l.pagesTaken + 1
  if toggle = l.lastToggle then s.send c (.pageAck toggle)
  else if 3 < place then s.failIntroduction c
  else
    let t := (s.updateLine c (fun l =>
      { l with ctx := l.ctx.nextPage place content, pagesTaken := place, lastToggle := toggle })).send c
        (.pageAck toggle)
    if more then t
    else if place = 1 then t.failIntroduction c
    else t.completeIntroduction c

/-! ## ORDER ACK and ORDER NAK (Sections 6.5 and 6.6) -/

/-- An ORDER ACK taken while UP (R131). -/
def State.takeOrderAck (s : State) (c : Fin 8) (n : Nat) : State :=
  let l := s.line c
  match l.trip, decide (l.exchangeKind = some (.order n)) with
  | some t, true => s.acceptOrder c t
  | _, _ =>
    if l.holdsTrip n || !(s.strandedTrip c n).isEmpty then s else s.listStale c n

/-- An ORDER NAK taken while UP (R128). -/
def State.takeOrderNak (s : State) (c : Fin 8) (n : Nat) (r : NakReason) : State :=
  let l := s.line c
  match l.trip, decide (l.exchangeKind = some (.order n)) with
  | some t, true => s.dissolveTrip c t (some r)
  | _, _ => s

/-! ## STATUS (Section 7.2) -/

/-- The fault kinds that a STATUS makes newly active (R141). -/
def Context.newFaults (x : Context) (faults : EightSet) : EightSet := faults &&& x.detect &&& ~~~x.active

/-- Steps 1 to 3 of R138 on the context: mode, NAK-fault, fault word, position, referenced, at-head, trip in hand, leg in
progress (R139, R140, R141). -/
def Context.takeReport (x : Context) (r : StatusReport) : Context :=
  let positionNew := x.newFaults r.faults &&& positionKind != 0
  { x with
    mode := r.mode
    nakFault := false
    active := r.faults &&& x.detect
    latched := x.latched ||| (r.faults &&& x.detect &&& x.latch)
    position := some (r.bay, r.level)
    referenced := r.referenced && !positionNew
    atHead := r.atHead
    tripInHand := r.trip
    legInProgress := r.leg }

/-- The number of kinds in a set of fault kinds. -/
def countKinds (k : EightSet) : Nat := ((List.range 8).filter (fun i => k.getLsbD i)).length

/-- Counter input `code` occurs `n` times. -/
def State.noteInputs (s : State) (c : Fin 8) (code : Nat) : Nat → State
  | 0 => s
  | n + 1 => (s.noteInput c code).noteInputs c code n

/-- Steps 1 to 3 of R138: the context, the fault raised events, and CRANE_FAULT when a kind is newly active (R141). -/
def State.takeReport (s : State) (c : Fin 8) (r : StatusReport) : State :=
  let new := (s.line c).ctx.newFaults r.faults
  let t := (s.updateCtx c (fun x => x.takeReport r)).noteInputs c 10 (countKinds new)
  if new != 0 then t.raise .craneFault else t

/-- The aisle of the stranded jobs from which step 6 of R138 will rebuild a trip at this STATUS (R100, R163): the mark
of R163 is set, the trip in hand names STRANDED jobs, and the crane holds no trip then. -/
def State.aisleToRebuild (s : State) (c : Fin 8) (n : Nat) : Option (Fin 16) :=
  let l := s.line c
  let free := match l.trip, l.exchangeKind with
    | none, _ => true
    | some _, some (.order m) => m != n
    | some _, _ => false
  if l.strandedCheck && n != 0 && free then
    match s.strandedTrip c n with
    | [] => none
    | i :: _ => (s.job i).map Job.aisle
  else none

/-- Step 4 of R138: the context's aisle, and the reconciliation of the locks where R99 calls for it. -/
def State.takeAisle (s : State) (c : Fin 8) (r : StatusReport) : State :=
  let before := (s.line c).ctx.aisle
  let rebuilt := s.aisleToRebuild c r.trip
  let t := s.updateCtx c (fun x => { x with aisle := r.aisle })
  match r.aisle with
  | .onCar => t.updateCtx c (fun x => { x with conflict := false })
  | .unknown => t.updateCtx c (fun x => { x with conflict := false })
  | .inAisle z =>
    if (t.aisle z).geometry.isSome && ((t.line c).reconcileDue || before != .inAisle z || !t.holdsLock c z) then
      (t.settleLocks c z rebuilt).updateLine c (fun l => { l with reconcileDue := false })
    else t

/-- Step 5 of R138: an open POLL closes, an open ORDER is decided by R129, and the not-ready mark is lifted when the
trip in hand is 0 (R128). -/
def State.decideExchange (s : State) (c : Fin 8) (r : StatusReport) : State :=
  let l := s.line c
  let t :=
    match l.trip, l.exchangeKind with
    | _, some .poll => s.closeExchange c
    | some p, some (.order n) =>
      if r.trip = n then s.acceptOrder c p
      else if l.ctx.mode ≠ .auto ∨ l.ctx.active ≠ 0 ∨ r.trip ≠ 0 then s.dissolveTrip c p none
      else s
    | _, _ => s
  if r.trip = 0 then t.updateLine c (fun l => { l with notReady := false }) else t

/-- The legs of a rebuilt trip, in leg order (R164). -/
def State.rebuiltLegs (s : State) (jobs : List Nat) : List Leg :=
  let legs := jobs.filterMap (fun i => (s.job i).map (fun j => (⟨j.legIndex, i, false, false, false⟩ : Leg)))
  s.wantCancels (sortBy (fun x y => x.index < y.index) legs)

/-- The current request of the car takes the number of the rebuilt trip of its crane (R164). -/
def CurrentRequest.adopt (q : CurrentRequest) (n : Nat) : CurrentRequest := { q with trip := n }

/-- The trip of the STRANDED jobs that hold trip number `n` is rebuilt (R164). -/
def State.rebuildTrip (s : State) (c : Fin 8) (n : Nat) (reported : CraneAisle) : State :=
  let jobs := s.strandedTrip c n
  match jobs with
  | [] => s
  | i :: _ =>
    match s.job i with
    | none => s
    | some j =>
      let y := j.aisle
      let riding := match s.car.current with
        | some q => if q.crane = c ∧ q.toAisle = y then some q else none
        | none => none
      let stands : Option (Fin 16) := match reported with
        | .inAisle x => some x
        | .onCar => none
        | .unknown => none
      let transfer : Option Transfer := match riding with
        | some q => some ⟨some q.fromAisle, y, .serving⟩
        | none => if stands = some y then none else some ⟨stands, y, .toHead⟩
      let trip : Trip := ⟨n, s.rebuiltLegs jobs, transfer, true, true⟩
      let t := (s.activate jobs).updateLine c (fun l =>
        { l with trip := some trip, ctx := { l.ctx with work := .busy } })
      match riding with
      | some q => t.updateCar (fun k => { k with current := some (q.adopt n) })
      | none => t

/-- The trip in hand of a STATUS against the trips the controller knows (step 6 of R138, R163). -/
def State.reconcileTrips (s : State) (c : Fin 8) (r : StatusReport) : State :=
  let l := s.line c
  let t := s.updateLine c (fun l => { l with strandedCheck := false })
  if r.trip = 0 ∨ l.holdsTrip r.trip then t
  else if (s.strandedTrip c r.trip).isEmpty then t.listStale c r.trip
  else if l.strandedCheck ∧ l.trip = none then t.rebuildTrip c r.trip r.aisle
  else t

/-- The joining of the car queue that a STATUS brings (step 6 of R138, R104). -/
def State.joinByStatus (s : State) (c : Fin 8) (r : StatusReport) : State :=
  match r.atHead, r.aisle with
  | true, .inAisle x => s.joinQueue c x
  | _, _ => s

/-- A STATUS taken while UP: the steps of R138 in their order; step 7 is the event's end. -/
def State.takeStatus (s : State) (c : Fin 8) (r : StatusReport) : State :=
  ((((s.takeReport c r).takeAisle c r).decideExchange c r).reconcileTrips c r).joinByStatus c r

/-! ## LEG DONE and CANCEL ANSWER (Sections 6.6, 8.2, 8.3, 8.5) -/

/-- The unfinished leg of the crane's trip that a telegram names (R155, R132). -/
def Line.openLeg (l : Line) (n index : Nat) : Option (Trip × Leg) :=
  match l.trip with
  | some t =>
    if t.number = n then (t.legs.find? (fun g => g.index == index && !g.finished)).map (fun g => (t, g)) else none
  | none => none

/-- The STRANDED job of the crane that holds a trip number and leg index (case 2 of R155). -/
def State.strandedLeg (s : State) (c : Fin 8) (n index : Nat) : Option (Nat × Job) :=
  s.jobs.find? (fun e => e.2.strandedOn c && e.2.tripNumber == n && e.2.legIndex == index)

/-- What a LEG DONE matches (R155): a leg of the trip, a STRANDED job, or nothing. -/
def State.matchLegDone (s : State) (c : Fin 8) (n index outcome position : Nat) : State :=
  let l := s.line c
  match (l.openLeg n index).filter (fun m => m.1.orderSent) with
  | some (t, g) =>
    let u := if l.exchangeKind = some (.order n) then s.acceptOrder c t else s
    u.endLeg c g outcome position
  | none =>
    match s.strandedLeg c n index with
    | some (i, j) => s.lateReport c i j outcome position
    | none => s

/-- A LEG DONE taken while UP: it is answered at once with DONE ACK (R132), and matched by R155. -/
def State.takeLegDone (s : State) (c : Fin 8) (n index outcome position : Nat) : State :=
  (s.send c (.doneAck n index)).matchLegDone c n index outcome position

/-- A CANCEL ANSWER taken while UP (R131, R132, R160, R161). -/
def State.takeCancelAnswer (s : State) (c : Fin 8) (n index : Nat) (taken : Bool) : State :=
  let l := s.line c
  if l.exchangeKind = some (.cancelAll n) then s.closeExchange c
  else if l.exchangeKind = some (.cancel n index) then
    let t := s.closeExchange c
    match l.openLeg n index with
    | some (_, g) => if taken then t.takeBackLeg c g else t
    | none => t
  else s

/-! ## The telegrams as events -/

/-- A PAGE with the base bit arrives (R116, R121). A dual capable byte outside its code list discards it (R187). -/
def State.receiveBasePage (s : State) (c : Fin 8) (more : Bool) (content : BitVec 64) : State :=
  s.event (fun t =>
    match readFlag (pageByte content 3) with
    | some dual => (t.takeBasePage c more dual content).noteLine c
    | none => t.badFrame c)

/-- A PAGE with the next bit arrives (R116, R122). -/
def State.receiveNextPage (s : State) (c : Fin 8) (toggle more : Bool) (content : BitVec 64) : State :=
  s.event (fun t =>
    let t := t.restartSilence c
    if (t.line c).link = .introducing then (t.takeNextPage c toggle more content).noteLine c else t)

/-- An ORDER ACK arrives. -/
def State.receiveOrderAck (s : State) (c : Fin 8) (trip : Byte) : State :=
  s.event (fun t => t.craneTelegram c (fun u => u.takeOrderAck c trip.toNat))

/-- An ORDER NAK arrives. A reason outside the code list discards it (R187). -/
def State.receiveOrderNak (s : State) (c : Fin 8) (trip reason : Byte) : State :=
  s.event (fun t =>
    match readNakReason reason.toNat with
    | some r => t.craneTelegram c (fun u => u.takeOrderNak c trip.toNat r)
    | none => t.badFrame c)

/-- A STATUS arrives. A coded field outside its list, or a bay, level or leg out of range, discards it (R187, R189). -/
def State.receiveStatus (s : State) (c : Fin 8) (mode aisle bay level flags faults trip leg : Byte) : State :=
  s.event (fun t =>
    match readStatus mode aisle bay level flags faults trip leg with
    | some r => t.craneTelegram c (fun u => u.takeStatus c r)
    | none => t.badFrame c)

/-- A LEG DONE arrives. Every outcome and load position is taken (R187). -/
def State.receiveLegDone (s : State) (c : Fin 8) (trip leg outcome position : Byte) : State :=
  s.event (fun t => t.craneTelegram c (fun u =>
    u.takeLegDone c trip.toNat leg.toNat outcome.toNat position.toNat))

/-- A CANCEL ANSWER arrives. A verdict outside the code list discards it (R187). -/
def State.receiveCancelAnswer (s : State) (c : Fin 8) (trip leg verdict : Byte) : State :=
  s.event (fun t =>
    match readCancelVerdict verdict.toNat with
    | some v => t.craneTelegram c (fun u => u.takeCancelAnswer c trip.toNat leg.toNat v)
    | none => t.badFrame c)

/-! ## Meanings -/

/-- BASE_PAGE (R121). -/
def execBasePage (c : Fin 8) (more : Bool) (content : BitVec 64) (s : State) : Host.Outcome State Fault Refusal :=
  .next (s.receiveBasePage c more content)

/-- NEXT_PAGE (R122). -/
def execNextPage (c : Fin 8) (toggle more : Bool) (content : BitVec 64) (s : State) :
    Host.Outcome State Fault Refusal :=
  .next (s.receiveNextPage c toggle more content)

/-- ORDER_ACK (R131). -/
def execOrderAck (c : Fin 8) (trip : Byte) (s : State) : Host.Outcome State Fault Refusal :=
  .next (s.receiveOrderAck c trip)

/-- ORDER_NAK (R128). -/
def execOrderNak (c : Fin 8) (trip reason : Byte) (s : State) : Host.Outcome State Fault Refusal :=
  .next (s.receiveOrderNak c trip reason)

/-- STATUS (R138). -/
def execStatus (c : Fin 8) (mode aisle bay level flags faults trip leg : Byte) (s : State) :
    Host.Outcome State Fault Refusal :=
  .next (s.receiveStatus c mode aisle bay level flags faults trip leg)

/-- LEG_DONE (R155). -/
def execLegDone (c : Fin 8) (trip leg outcome position : Byte) (s : State) : Host.Outcome State Fault Refusal :=
  .next (s.receiveLegDone c trip leg outcome position)

/-- CANCEL_ANSWER (R132). -/
def execCancelAnswer (c : Fin 8) (trip leg verdict : Byte) (s : State) : Host.Outcome State Fault Refusal :=
  .next (s.receiveCancelAnswer c trip leg verdict)

end Sys2Proof.Machine
end

