-- ==== Sys2Proof/Machine/CarTelegrams.lean ====
section
/-! DEFINITION. The car telegrams as events, and the meanings of the rows CAR_ACK to CAR_STATUS of the table
(Sections 5.4, 5.6 and 5.7). A discarded car telegram has no effect (R102). -/

namespace Sys2Proof.Machine

/-- A CAR ACK arrives. -/
def State.receiveCarAck (s : State) (order : Byte) : State :=
  s.event (fun t => t.carTelegram (fun u => u.takeCarAck order.toNat))

/-- A CAR NAK arrives. A reason outside the code list discards it (R187). -/
def State.receiveCarNak (s : State) (order reason : Byte) : State :=
  s.event (fun t =>
    match readCarRefusal reason.toNat with
    | some r => t.carTelegram (fun u => u.takeCarNak order.toNat r)
    | none => t)

/-- A PHASE arrives. A phase outside 1 to 4 discards it (R187, R189). -/
def State.receivePhase (s : State) (order phase : Byte) : State :=
  s.event (fun t =>
    match readCarPhase phase.toNat with
    | some p => t.carTelegram (fun u => u.takePhase order.toNat p)
    | none => t)

/-- A CAR STATUS arrives; it is taken in every link state (R102, R103). A coded field outside its list discards it. -/
def State.receiveCarStatus (s : State) (mode position fault order lastPhase : Byte) : State :=
  s.event (fun t =>
    match readCarStatus mode position fault order lastPhase with
    | some r => t.restartCarSilence.takeCarStatus r
    | none => t)

/-- CAR_ACK (R106). -/
def execCarAck (order : Byte) (s : State) : Host.Outcome State Fault Refusal :=
  .next (s.receiveCarAck order)

/-- CAR_NAK (R107). -/
def execCarNak (order reason : Byte) (s : State) : Host.Outcome State Fault Refusal :=
  .next (s.receiveCarNak order reason)

/-- PHASE (R108). -/
def execPhase (order phase : Byte) (s : State) : Host.Outcome State Fault Refusal :=
  .next (s.receivePhase order phase)

/-- CAR_STATUS (R103). -/
def execCarStatus (mode position fault order lastPhase : Byte) (s : State) : Host.Outcome State Fault Refusal :=
  .next (s.receiveCarStatus mode position fault order lastPhase)

end Sys2Proof.Machine
end

