-- ==== Sys2Proof/Machine/Timers.lean ====
section
/-! DEFINITION. The events that are neither requests nor taken telegrams: bytes and gaps on the telegram lines (R115),
timer expiries, the HOLD input (Section 3.3), the dispatch clock (R183), a stall (R87), a counter's overflow (R150) and
a dispatch pass (R70), with the meanings of their rows. -/

namespace Sys2Proof.Machine

/-! ## Telegram reception (R115, R186, R189) -/

/-- The content of a telegram whose length byte and check value are right arrives from crane `c`: its code and body
length choose the telegram, and one that is no crane telegram is a bad frame event (R115, R189). -/
def State.receiveCraneContent (s : State) (c : Fin 8) (content : List Byte) : State :=
  let code := byteAt content 0
  let b := fun i => BitVec.ofNat 8 (byteAt content (i + 1))
  let n := content.length
  if code = 0x41 ∧ n = 2 then s.receiveOrderAck c (b 0)
  else if code = 0x42 ∧ n = 3 then s.receiveOrderNak c (b 0) (b 1)
  else if code = 0x43 ∧ n = 9 then s.receiveStatus c (b 0) (b 1) (b 2) (b 3) (b 4) (b 5) (b 6) (b 7)
  else if code = 0x44 ∧ n = 5 then s.receiveLegDone c (b 0) (b 1) (b 2) (b 3)
  else if code = 0x45 ∧ n = 4 then s.receiveCancelAnswer c (b 0) (b 1) (b 2)
  else if code = 0x46 ∧ n = 10 then
    let page := byteAt content 1
    let more := decide (page / 4 % 2 = 1)
    if page % 2 = 0 then s.receiveBasePage c more (pageContent (content.drop 2))
    else s.receiveNextPage c (decide (page / 2 % 2 = 1)) more (pageContent (content.drop 2))
  else s.event (fun t => t.badFrame c)

/-- The same on the car line, where a discarded telegram has no effect (R102). -/
def State.receiveCarContent (s : State) (content : List Byte) : State :=
  let code := byteAt content 0
  let b := fun i => BitVec.ofNat 8 (byteAt content (i + 1))
  let n := content.length
  if code = 0x71 ∧ n = 2 then s.receiveCarAck (b 0)
  else if code = 0x72 ∧ n = 3 then s.receiveCarNak (b 0) (b 1)
  else if code = 0x73 ∧ n = 3 then s.receivePhase (b 0) (b 1)
  else if code = 0x74 ∧ n = 6 then s.receiveCarStatus (b 0) (b 1) (b 2) (b 3) (b 4)
  else s

/-- A whole telegram arrives from crane `c`: one whose length byte or check value is wrong is a bad frame event. -/
def State.receiveCraneFrame (s : State) (c : Fin 8) (frame : List Byte) : State :=
  match checkFrame 1 64 frame with
  | some content => s.receiveCraneContent c content
  | none => s.event (fun t => t.badFrame c)

/-- A whole telegram arrives from the car. -/
def State.receiveCarFrame (s : State) (frame : List Byte) : State :=
  match checkFrame 1 64 frame with
  | some content => s.receiveCarContent content
  | none => s

/-- One byte arrives from crane `c`. -/
def State.receiveCraneByte (s : State) (c : Fin 8) (b : Byte) : State :=
  let r := gatherByte (s.line c).gathered b
  let t := s.updateLine c (fun l => { l with gathered := r.1 })
  match r.2 with
  | some frame => t.receiveCraneFrame c frame
  | none => t

/-- One byte arrives from the car. -/
def State.receiveCarByte (s : State) (b : Byte) : State :=
  let r := gatherByte s.car.gathered b
  let t := s.updateCar (fun k => { k with gathered := r.1 })
  match r.2 with
  | some frame => t.receiveCarFrame frame
  | none => t

/-- TELEGRAM_DISCARDED (R115): bytes arrive on a telegram line. Stray bytes are passed over, a telegram that fails a
check is discarded (a bad frame event on a crane line), and one that passes is taken as its own row gives. -/
def execTelegramDiscarded (line : LineId) (bytes : List Byte) (s : State) : Host.Outcome State Fault Refusal :=
  .next (match line with
    | .crane c => bytes.foldl (fun t b => t.receiveCraneByte c b) s
    | .car => bytes.foldl State.receiveCarByte s)

/-- TELEGRAM_GAP_TIMEOUT (R115): the bytes gathered so far are discarded. It is no bad frame event. -/
def execTelegramGapTimeout (line : LineId) (s : State) : Host.Outcome State Fault Refusal :=
  .next (match line with
    | .crane c => s.updateLine c (fun l => { l with gathered := [] })
    | .car => s.updateCar (fun k => { k with gathered := [] }))

/-! ## Timers of the crane lines and the car line -/

/-- INTRODUCTION_TIMER_EXPIRY (R124): it runs while the link is INTRODUCING. -/
def execIntroductionTimerExpiry (c : Fin 8) (s : State) : Host.Outcome State Fault Refusal :=
  .next (if (s.line c).link = .introducing then s.event (fun t => t.failIntroduction c) else s)

/-- The answer timer expires on an open exchange (R118): the telegram is sent again, or the exchange fails. -/
def State.expireAnswer (s : State) (c : Fin 8) (x : Exchange) : State :=
  if x.resends < s.settings.resendLimit then
    ((s.send c x.telegram).updateLine c (fun l =>
      { l with exchange := some { x with resends := x.resends + 1, period := s.settings.tack } })).noteInput c 6
  else s.loseLink c

/-- ANSWER_TIMER_EXPIRY (R118): without an open exchange no answer timer runs. -/
def execAnswerTimerExpiry (c : Fin 8) (s : State) : Host.Outcome State Fault Refusal :=
  .next (match (s.line c).exchange with
    | some x => s.event (fun t => t.expireAnswer c x)
    | none => s)

/-- Nothing waits to be sent as an exchange on the line (R119). -/
def Line.nothingWaits (l : Line) : Bool := l.tripToOrder.isNone && l.stale.isEmpty && l.legToCancel.isNone

/-- The silence timer reaches the poll interval (R120). -/
def State.pollCrane (s : State) (c : Fin 8) : State :=
  let l := s.line c
  match l.link with
  | .up => if l.exchange = none ∧ l.nothingWaits then s.openExchange c .poll .poll else s
  | .introducing => s
  | .absent => (s.send c .poll).restartSilence c
  | .lost => (s.send c .poll).restartSilence c

/-- POLL_INTERVAL_EXPIRY (R120). -/
def execPollIntervalExpiry (c : Fin 8) (s : State) : Host.Outcome State Fault Refusal :=
  .next (s.event (fun t => t.pollCrane c))

/-- CAR_ANSWER_TIMER_EXPIRY (R102). -/
def execCarAnswerTimerExpiry (s : State) : Host.Outcome State Fault Refusal :=
  .next (s.event State.expireCarAnswer)

/-- CAR_POLL_INTERVAL_EXPIRY (R102). -/
def execCarPollIntervalExpiry (s : State) : Host.Outcome State Fault Refusal :=
  .next (s.event State.pollCar)

/-- CAR_JOB_TIMEOUT (R109): the running car job timer reaches the car job timeout. -/
def execCarJobTimeout (s : State) : Host.Outcome State Fault Refusal :=
  .next (match s.car.jobTimer with
    | none => s
    | some n =>
      if s.car.overdue then s
      else s.event (fun t =>
        (t.updateCar (fun k => { k with jobTimer := some (max n (k.timeout * 10)) })).expireCarJob))

/-! ## The HOLD input (R60, R61) -/

/-- An edge of the HOLD input is acted on (R60, R61): the held flag follows, HOLD is raised, a settling period starts,
and a release is a trigger of a pass. -/
def State.holdEdge (s : State) (level : HoldLevel) : State :=
  let t : State := { s with disp := { s.disp with held := decide (level = HoldLevel.asserted), actedOn := level, settling := true } }
  let t := t.raise .hold
  if level = .released then t.tellDispatcher else t

/-- The input stands at `level`; in OPEN a level other than the one last acted on is an edge (R60). -/
def State.holdChange (s : State) (level : HoldLevel) : State :=
  let t : State := { s with disp := { s.disp with holdInput := level } }
  if t.disp.settling = false ∧ level ≠ t.disp.actedOn then t.holdEdge level else t

/-- HOLD_INPUT_CHANGE (R60). -/
def execHoldInputChange (level : HoldLevel) (s : State) : Host.Outcome State Fault Refusal :=
  .next (s.event (fun t => t.holdChange level))

/-- The settling period expires (R60). -/
def State.holdSettled (s : State) : State :=
  if s.disp.settling then
    if s.disp.holdInput = s.disp.actedOn then { s with disp := { s.disp with settling := false } }
    else s.holdEdge s.disp.holdInput
  else s

/-- HOLD_SETTLING_EXPIRY (R60). -/
def execHoldSettlingExpiry (s : State) : Host.Outcome State Fault Refusal :=
  .next (s.event State.holdSettled)

/-! ## The dispatch clock (R183), stalls (R87), counters (R150), passes (R70) -/

/-- One tenth on the clock (R183). -/
def Clock.tick (k : Clock) : Clock :=
  if k.tenths < 9 then { k with tenths := k.tenths + 1 }
  else ⟨if k.seconds < 4294967295 then k.seconds + 1 else 0, 0⟩

/-- The age of a live record increases by one, up to 65535 (R6). -/
def Job.older (j : Job) : Job := if j.state = .done then j else { j with age := min 65535 (j.age + 1) }

/-- A whole second of the dispatch clock (R6, R87). -/
def State.countSecond (s : State) : State :=
  allGroups.foldl State.countStall { s with jobs := s.jobs.map (fun e => (e.1, e.2.older)) }

/-- A tenth of a second of the dispatch clock (R183), and of a running transfer (R109, assumption 9). -/
def State.countTenth (s : State) : State :=
  let t : State := { s with clock := s.clock.tick }
  let t : State := (allCranes.foldl (fun (u : State) c => u.noteInput c 15) t).countCarJob
  if t.clock.tenths = 0 then t.countSecond else t

/-- DISPATCH_CLOCK_TICK (R183): in LOADING the clock stands still. -/
def execDispatchClockTick (s : State) : Host.Outcome State Fault Refusal :=
  .next (if s.phase = .loading then s else s.event State.countTenth)

/-- STALL_LIMIT_REACHED (R87). -/
def execStallLimitReached (group : Fin 16) (s : State) : Host.Outcome State Fault Refusal :=
  .next (s.event (fun t => t.reportStall group))

/-- COUNTER_OVERFLOW (R150): a counter at its maximum that may count one more occurrence of its event input is counted
once more; on any other counter the row changes nothing (assumptions 6 and 11). -/
def execCounterOverflow (c : Fin 8) (counter : CounterId) (s : State) : Host.Outcome State Fault Refusal :=
  .next (if Config.counterMax ≤ ((s.line c).counters.get counter).value ∧ s.mayCount c counter then
      s.event (fun t => t.bump c counter)
    else s)

/-- DISPATCH_PASS (R70, R71): a pass is made for a trigger that has been told. -/
def execDispatchPass (s : State) : Host.Outcome State Fault Refusal :=
  .next (if s.disp.passesDue = 0 then s else s.event State.dispatchPass)

end Sys2Proof.Machine
end

