-- ==== Sys2Proof/Machine/Replies.lean ====
section
/-! DEFINITION. Reply bodies (R187, R190): each request's rule names the fields, and they stand in the order in which
that rule names them, a field that may be absent after its presence byte. -/

namespace Sys2Proof.Machine

/-- A slot of the aisle that may be absent. -/
def putSlotOption (a : Fin 16) (p : Option SlotPos) : List Byte := putOption 3 (putSlotAddress a) p

/-- The group and rank of a job (R190: group 1, rank 2), which R1 names as one field: where they are absent, one presence
byte stands before the two (DEDUCED, assumption 24). -/
def putGroupRank (m : GroupRank) : List Byte := put1 (m.group.val + 1) ++ put2 m.rank

/-- An assignment (R190). -/
def putAssignment (x : Assignment) : List Byte := put1 x.crane.val ++ put1 x.trip ++ put1 x.leg

/-- Every field of a job record, in the order of R1. The fields that R2 makes absent in a FREE record alone stand
without a presence byte, since no reply gives a FREE record, and group and rank, one field of R1, have one presence byte
before the two (R24; DEDUCED, assumption 24). -/
def Job.put (j : Job) : List Byte :=
  put4 j.tag ++ put1 (kindCode j.kind) ++ put1 (stateCode j.state) ++
  putOption 1 (fun r => put1 (reasonCode r)) j.reason ++ put1 j.aisle.val ++
  putSlotOption j.aisle j.slot ++ putSlotOption j.aisle j.target ++
  putOption 1 (fun c => put1 (choiceCode c)) j.choice ++ put1 j.loadClass ++ put2 j.attr.toNat ++ put1 j.priority ++
  put2 j.age ++ putOption 1 putFlag j.staged ++ putOption 3 putGroupRank j.group ++ putOption 2 put2 j.link ++
  putOption 3 putAssignment j.assignment ++ putFlag j.withdrawRequested ++ put1 j.excluded.toNat ++
  put1 j.refusals ++ putOption 4 putSigned j.lastScore ++ putOption 1 (fun o => put1 (outcomeCode o)) j.outcome

/-- A record index and the record's fields, as R24 names them. -/
def putJob (i : Nat) (j : Job) : List Byte := put2 i ++ j.put

/-- The record at index `i` as QUERY JOB gives it, with the held indication (R24, R25). -/
def State.putQueriedJob (s : State) (i : Nat) : List Byte :=
  match s.job i with
  | none => []
  | some j => putJob i j ++ putFlag (s.jobHeld j)

/-- The record at index `i` as AMEND JOB gives it (R19): the record's fields, without the record index and the held
indication that R24 names beside them (DEDUCED, assumption 24). -/
def State.putAmendedJob (s : State) (i : Nat) : List Byte :=
  match s.job i with
  | none => []
  | some j => j.put

/-- The state and pending reason of a record (R16, R20). -/
def State.putStateReason (s : State) (i : Nat) : List Byte :=
  match s.job i with
  | none => put1 0 ++ putOption 1 put1 none
  | some j => put1 (stateCode j.state) ++ putOption 1 (fun r => put1 (reasonCode r)) j.reason

/-- The state and outcome of a record (R21, R27). A relocation that RESOLVE JOB freed shows FREE. -/
def State.putStateOutcome (s : State) (i : Nat) : List Byte :=
  match s.job i with
  | none => put1 0 ++ putOption 1 put1 none
  | some j => put1 (stateCode j.state) ++ putOption 1 (fun o => put1 (outcomeCode o)) j.outcome

/-- The state of a record alone (R22, and the entries of R17). -/
def State.putState (s : State) (i : Nat) : List Byte :=
  match s.job i with
  | none => put1 0
  | some j => put1 (stateCode j.state)

/-- The tag of the relocation that a record's link names (R16). -/
def State.linkedTag (s : State) (i : Nat) : Option Nat :=
  match s.job i with
  | none => none
  | some j =>
    match j.link with
    | none => none
    | some l => (s.job l).map Job.tag

/-- A reservation with the tag of the job that holds it (R190). -/
def State.putReservation (s : State) (v : Reservation) : List Byte :=
  put1 (resKindCode v.kind) ++ put2 v.job ++
    put4 (match s.job v.job with | some j => j.tag | none => 0)

/-- A slot record (R52, R53). -/
def State.putSlotRecord (s : State) (a : Fin 16) (p : SlotPos) : List Byte :=
  let r := s.slot a p
  put1 (conditionCode r.condition) ++ put1 r.slotClass ++ putOption 1 put1 r.pallet ++
    putOption 7 s.putReservation r.reservation ++ putFlag r.unverified

/-- A hold filter entry (R190). -/
def putFilter (n : Nat) (f : HoldFilter) : List Byte :=
  put1 n ++ putFlag f.enabled ++ put2 f.argument.toNat ++ put2 f.mask.toNat

/-- The eight hold filter entries from number `n` on. -/
def putFilters (n : Nat) : List HoldFilter → List Byte
  | [] => []
  | f :: rest => putFilter n f ++ putFilters (n + 1) rest

/-- The five weights (R76). -/
def Weights.put (w : Weights) : List Byte := put2 w.wa ++ put2 w.wp ++ put2 w.wh ++ put2 w.u ++ putFlag w.dual

/-- The body of QUERY DISPATCH (R77). -/
def Dispatcher.put (d : Dispatcher) : List Byte :=
  d.weights.put ++ putFilters 0 d.filters.toList ++ putFlag d.held ++ put1 (levelCode d.holdInput) ++ putFlag d.settling

/-- A done-ahead set (R190): bit i stands for the rank next rank + i. -/
def OpenGroup.putAhead (o : OpenGroup) : List Byte :=
  put4 (o.ahead.foldl (fun n r => n + 2 ^ (r - o.next)) 0)

/-- A group record in the order of R79 (R88). -/
def Group.put (g : Group) : List Byte :=
  putFlag g.opened.isSome ++ putOption 2 (fun o => put2 (OpenGroup.next o)) g.opened ++
  putOption 1 (fun o => put1 (OpenGroup.window o)) g.opened ++ putOption 4 OpenGroup.putAhead g.opened ++
  put2 g.members ++ putOption 2 (fun o => put2 (OpenGroup.stallLimit o)) g.opened ++
  putOption 2 (fun o => put2 (OpenGroup.stallTimer o)) g.opened ++
  putOption 1 (fun o => putFlag (OpenGroup.stallReported o)) g.opened

/-- The body of QUERY GROUP in the order of R91, with the head indication of an OPEN group. -/
def State.putQueriedGroup (s : State) (n : Fin 16) : List Byte :=
  let g := s.group n
  putFlag g.opened.isSome ++ put2 g.members ++ putOption 2 (fun o => put2 (OpenGroup.next o)) g.opened ++
  putOption 1 (fun o => put1 (OpenGroup.window o)) g.opened ++ putOption 4 OpenGroup.putAhead g.opened ++
  putOption 2 (fun o => put2 (OpenGroup.stallLimit o)) g.opened ++
  putOption 2 (fun o => put2 (OpenGroup.stallTimer o)) g.opened ++
  putOption 1 (fun o => putFlag (OpenGroup.stallReported o)) g.opened ++
  putOption 1 (fun o => putFlag (s.rankHeld n (OpenGroup.next o))) g.opened

/-- The body of SKIP RANK (R90). -/
def Group.putSkipped (g : Group) : List Byte :=
  putOption 2 (fun o => put2 (OpenGroup.next o)) g.opened ++ putOption 4 OpenGroup.putAhead g.opened

/-- An aisle record in the order of R94 (R95). -/
def Aisle.put (r : Aisle) : List Byte :=
  putFlag r.geometry.isSome ++ putOption 1 putFlag r.enabled ++ put1 (lockCode r.lock) ++ put2 r.occupied ++ put2 r.free

/-- The body of QUERY AISLE (R96). The lock holder has a presence byte, since R96 reports it absent for an aisle that is
not configured, where R94 gives it as none (DEDUCED, assumption 24). -/
def Aisle.putQueried (r : Aisle) : List Byte :=
  putFlag r.geometry.isSome ++ putOption 1 (fun g => put1 (Geometry.levels g)) r.geometry ++
  putOption 1 (fun g => put1 (Geometry.bays g)) r.geometry ++ putOption 1 (fun g => put1 (Geometry.depths g)) r.geometry ++
  putOption 1 (fun g => put1 (Geometry.defaultClass g)) r.geometry ++
  putOption 1 putFlag r.enabled ++ putOption 1 (fun _ => put1 (lockCode r.lock)) r.geometry ++
  put2 r.occupied ++ put2 r.free

/-- The current request of the car (R190). -/
def CurrentRequest.put (r : CurrentRequest) : List Byte :=
  put1 r.order ++ put1 r.crane.val ++ put1 r.fromAisle.val ++ put1 r.toAisle.val ++ put1 r.trip

/-- An entry of the car queue (R190). -/
def CarRequest.put (e : CarRequest) : List Byte := put1 e.crane.val ++ put1 e.fromAisle.val ++ put1 e.toAisle.val

/-- The running car job timer in whole seconds (R190). Above 65535 the two bytes are a free value (assumption 7). -/
def timerSeconds (tenths : Nat) : Nat :=
  if tenths / 10 ≤ 65535 then tenths / 10 else Config.longTimerReading (tenths / 10)

/-- The body of QUERY CAR (R113). The car job timer, given while it runs alone, has a presence byte (DEDUCED, assumption
24). -/
def Car.put (k : Car) : List Byte :=
  put1 (linkCode k.link) ++ put1 (carWorkCode k.work) ++ putFlag k.configured ++
  put1 (carModeCode k.mode) ++ putOption 1 (fun a => put1 (Fin.val a)) k.position ++ putFlag k.fault ++ put1 k.orderInHand ++
  putFlag k.notReady ++ putOption 1 (fun r => put1 (carRefusalCode r)) k.lastRefusal ++ putFlag k.overdue ++
  put2 k.c0 ++ put2 k.c1 ++ put2 k.timeout ++ putOption 2 (fun n => put2 (timerSeconds n)) k.jobTimer ++
  put1 k.orderNumber ++ putOption 5 CurrentRequest.put k.current ++
  put1 k.queue.length ++ k.queue.flatMap CarRequest.put

/-- A transfer (R190): its presence byte, the from aisle with its own, the to aisle and the stage. -/
def putTransfer (x : Option Transfer) : List Byte :=
  putOption 4 (fun y : Transfer =>
    putOption 1 (fun a => put1 (Fin.val a)) y.fromAisle ++ put1 y.toAisle.val ++ put1 (stageCode y.stage)) x

/-- The three marks of a leg (R190). -/
def Leg.marks (g : Leg) : Nat := g.finished.toNat + 2 * g.cancelWanted.toNat + 4 * g.cancelSent.toNat

/-- A leg of a trip record (R190). The tag is that of the record the leg names as it then stands: a finished leg whose
record has been retired gives 0, or the tag of the job that has taken the record since (DEDUCED, assumption 24). -/
def State.putLeg (s : State) (g : Leg) : List Byte :=
  put1 g.index ++ put2 g.job ++ put4 (match s.job g.job with | some j => j.tag | none => 0) ++ put1 g.marks

/-- A trip record (R190). -/
def State.putTrip (s : State) (t : Trip) : List Byte :=
  put1 t.number ++ putFlag t.accepted ++ putTransfer t.transfer ++ put1 t.legs.length ++ t.legs.flatMap s.putLeg

/-- A name of eight characters. -/
def putName (n : BitVec 64) : List Byte := put4 (n.toNat / 4294967296) ++ put4 n.toNat

/-- A crane context in the order of R136. R190 gives the position no width: it is sent as the one field that R136 names, one
presence byte, then the bay and the level, one byte each (DEDUCED, assumption 24). -/
def Context.put (x : Context) : List Byte :=
  putOption 1 put1 x.protocolLevel ++ putOption 2 put2 x.serial ++ putOption 8 putName x.name ++
  putOption 2 put2 x.h ++ putOption 2 put2 x.v ++ putOption 2 put2 x.a ++ putOption 2 put2 x.fF ++
  putOption 2 put2 x.fR ++ putOption 1 put1 x.forkDepth ++ putOption 1 putFlag x.dualCapable ++
  putOption 2 (fun k => put2 (BitVec.toNat k)) x.classes ++ putFlag x.clamped ++ put1 (craneModeCode x.mode) ++
  put1 (craneAisleCode x.aisle) ++ putOption 2 (fun p => put1 (Prod.fst p) ++ put1 (Prod.snd p)) x.position ++
  putFlag x.referenced ++ putFlag x.atHead ++ put1 x.tripInHand ++ put1 x.legInProgress ++ put1 x.active.toNat ++
  put1 x.latched.toNat ++ put1 x.detect.toNat ++ put1 x.latch.toNat ++ putFlag x.conflict ++ putFlag x.nakFault ++
  putFlag x.disabled ++ putFlag x.drained ++ put1 (workCode x.work)

/-- The body of QUERY CRANE (R146). The count of next pages, given while INTRODUCING alone, and the kind and the resend
count of the open exchange each have a presence byte of their own (DEDUCED, assumption 24). -/
def State.putCrane (s : State) (c : Fin 8) : List Byte :=
  let l := s.line c
  put1 (linkCode l.link) ++ putOption 1 put1 (if l.link = .introducing then some l.pagesTaken else none) ++
  l.ctx.put ++ putFlag l.notReady ++ putFlag l.ctx.faulted ++ putFlag (s.eligible c) ++ put1 l.lastTrip ++
  putOption 8 s.putTrip l.trip ++ putOption 1 (fun x => put1 (exchangeCode (Exchange.kind x))) l.exchange ++
  putOption 1 (fun x => put1 (Exchange.resends x)) l.exchange ++ put1 l.stale.length

/-- The body of SET CRANE (R144). -/
def Context.putMarks (x : Context) : List Byte :=
  putFlag x.disabled ++ putFlag x.drained ++ put1 x.detect.toNat ++ put1 x.latch.toNat ++ put1 x.active.toNat ++
    put1 x.latched.toNat

/-- The body of CLEAR FAULTS (R145). -/
def Context.putFaults (x : Context) : List Byte := put1 x.latched.toNat ++ put1 x.active.toNat

/-- A counter (R190). -/
def Counter.put (k : Counter) : List Byte :=
  put1 k.select ++ put1 (counterModeCode k.mode) ++ putFlag k.drainEnable ++ put3 k.value ++ putFlag k.overflow

/-- The four counters and the two combine flags (R151, R152). -/
def Counters.put (k : Counters) : List Byte :=
  k.a0.put ++ k.b0.put ++ k.a1.put ++ k.b1.put ++ putFlag k.combine0 ++ putFlag k.combine1

/-- An alert set (R190). -/
def putAlerts (a : AlertSet) : List Byte := put2 a.toNat

/-- The body of READ ALERTS (R175). The level of ATTENTION is 1 when asserted and 0 when released, a code that R187 does
not list (DEDUCED, assumption 38). -/
def HostPort.putAlertState (h : HostPort) : List Byte :=
  putAlerts h.alerts ++ putAlerts h.mask ++ putAlerts h.conditions ++ putFlag h.attention

/-- The phase and the dispatch clock (R181, R182). -/
def State.putRun (s : State) : List Byte := put1 (phaseCode s.phase) ++ put4 s.clock.seconds ++ put1 s.clock.tenths

end Sys2Proof.Machine
end

