-- ==== Sys2Proof/Machine/HostPort.lean ====
section
/-! DEFINITION. The Host Link Port (Sections 9.1 and 9.2): gathering frames, the request list, the turn of a request,
and the forming of its reply; the meanings of HOST_FRAME_RECEIVED, HOST_FRAME_GAP_TIMEOUT and UNKNOWN_REQUEST_CODE. -/

namespace Sys2Proof.Machine

/-- A reply is formed and joins the tail of the outgoing replies (step 5 of R170). -/
def State.answer (s : State) (r : Request) (status : Status) (body : List Byte) : State :=
  { s with host := { s.host with replies := s.host.replies ++ [⟨r.code, r.number, status, body⟩] } }

/-- A frame that passes its checks joins the tail of the request list while it holds fewer than 8, and is discarded
otherwise (R169). -/
def State.joinRequests (s : State) (r : Request) : State :=
  if s.host.requests.length < Config.requestRoom then
    { s with host := { s.host with requests := s.host.requests ++ [r] } }
  else s

/-- The request list without its head. -/
def State.popRequest (s : State) : State := { s with host := { s.host with requests := s.host.requests.tail } }

/-- A request command (assumption 3): with an empty request list its frame arrives and is handled at once; with the
request at the head of the list its turn has come (R170); behind another request its frame joins the list (R169). -/
def State.hostRequest (s : State) (r : Request) (handle : State → State) : State :=
  match s.host.requests with
  | [] => handle s
  | q :: _ => if q = r then handle s.popRequest else s.joinRequests r

/-- What an owner makes of a request: the reply status, the state it leaves, and the body of the reply, taken from the
state as it then stands. -/
structure Served where
  status : Status
  state : State
  body : State → List Byte

/-- A refusal: nothing changes and the body is empty (R14, R172, R190). -/
def refuse (s : State) (status : Status) : Served := ⟨status, s, fun _ => []⟩

/-- A request carried out. -/
def accept (s : State) (body : State → List Byte) : Served := ⟨.ok, s, body⟩

/-- The status is OK or PARTIAL, which alone change anything and carry a body (R172, R190). -/
def Status.carriedOut (x : Status) : Bool := x == .ok || x == .partly

/-- Steps 3 to 5 of R170 for a request that changes records: the body length, the phase (R171), the owner's checks and
effects, the end of the event, the reply. -/
def State.handle (s : State) (r : Request) (serve : State → Served) : State :=
  if !lengthAgrees r.code r.body then s.answer r .badField []
  else if !admitted r.code s.phase then s.answer r .wrongPhase []
  else
    let v := serve s
    if v.status.carriedOut then
      let t := v.state.finish s
      t.answer r v.status (v.body t)
    else s.answer r v.status []

/-- The same for a request whose effects touch nothing that an evaluation, a counter input, a crane's eligibility or a
summary condition reads, or whose rules have it leave counters and port as they stand (START, RESUME; assumption 37): the
event ends with the effects themselves. -/
def State.handlePlain (s : State) (r : Request) (serve : State → Served) : State :=
  if !lengthAgrees r.code r.body then s.answer r .badField []
  else if !admitted r.code s.phase then s.answer r .wrongPhase []
  else
    let v := serve s
    if v.status.carriedOut then v.state.answer r v.status (v.body v.state) else s.answer r v.status []

/-- The same for a query, which changes nothing: the status and the body. -/
def State.handleQuery (s : State) (r : Request) (look : State → Status × List Byte) : State :=
  if !lengthAgrees r.code r.body then s.answer r .badField []
  else if !admitted r.code s.phase then s.answer r .wrongPhase []
  else
    let v := look s
    if v.1.carriedOut then s.answer r v.1 v.2 else s.answer r v.1 []

/-! ## Receiving frames -/

/-- A whole host frame arrives: it is checked, and joins the request list or is discarded (R168, R169). -/
def State.receiveHostFrame (s : State) (frame : List Byte) : State :=
  match checkFrame 2 255 frame with
  | some (code :: number :: body) => s.joinRequests ⟨code, number, body⟩
  | some _ => s
  | none => s

/-- One byte arrives from the host (R168). -/
def State.receiveHostByte (s : State) (b : Byte) : State :=
  let r := gatherByte s.host.gathered b
  let t : State := { s with host := { s.host with gathered := r.1 } }
  match r.2 with
  | some frame => t.receiveHostFrame frame
  | none => t

/-- HOST_FRAME_RECEIVED (R168). -/
def execHostFrameReceived (bytes : List Byte) (s : State) : Host.Outcome State Fault Refusal :=
  .next (bytes.foldl State.receiveHostByte s)

/-- HOST_FRAME_GAP_TIMEOUT (R168): the bytes gathered so far are discarded. -/
def execHostFrameGapTimeout (s : State) : Host.Outcome State Fault Refusal :=
  .next { s with host := { s.host with gathered := [] } }

/-- UNKNOWN_REQUEST_CODE (step 2 of R170). A code that names a request is no unknown code: its frame joins the list and
waits for the turn that its own command gives it. -/
def execUnknownRequestCode (code number : Byte) (body : List Byte) (s : State) : Host.Outcome State Fault Refusal :=
  .next (
    let r : Request := ⟨code, number, body⟩
    if (requestRow code).isSome then s.joinRequests r
    else s.hostRequest r (fun t => t.answer r .unknownRequest []))

end Sys2Proof.Machine
end

