-- ==== Sys2Proof/Machine/JobRequests.lean ====
section
/-! DEFINITION. The host requests on jobs (Section 1.4), and the meanings of POST_JOB to RESOLVE_JOB. -/

namespace Sys2Proof.Machine

/-- The status of the first check of a list that does not hold. -/
def firstFailing : List (Bool × Status) → Option Status
  | [] => none
  | (holds, status) :: rest => if holds then firstFailing rest else some status

/-! ## Posting (R15, R16, R17) -/

/-- The kind of a descriptor is STORE. -/
def Descriptor.isStore (d : Descriptor) : Bool := readKind d.kind == some .store

/-- The kind of a descriptor is RETRIEVE. -/
def Descriptor.isRetrieve (d : Descriptor) : Bool := readKind d.kind == some .retrieve

/-- Step 2 of R15. -/
def Descriptor.inRange (d : Descriptor) : Bool :=
  decide (1 ≤ d.tag) && decide (d.tag ≤ 0x7FFFFFFF) && (d.isStore || d.isRetrieve) && decide (d.group ≤ 16) &&
    (d.group == 0 || d.rank != 0) && (!d.isRetrieve || (d.choice == .explicit && !d.staged)) &&
    (!d.isStore || d.group == 0)

/-- The group and rank a descriptor carries: group 0 means that the job has none (Section 1.4.2). -/
def Descriptor.groupRank (d : Descriptor) : Option GroupRank :=
  if d.group = 0 then none else some ⟨Fin.ofNat 16 (d.group - 1), d.rank⟩

/-- Step 4 of R15: an explicit slot lies within the geometry of the aisle. -/
def State.descriptorFits (s : State) (d : Descriptor) : Bool :=
  match d.choice, (s.aisle d.address.aisle).geometry with
  | .explicit, some g => g.holds d.address.pos
  | .explicit, none => false
  | .chosen, _ => true

/-- Step 7 of R15. -/
def State.groupTakes (s : State) (m : Option GroupRank) : Bool :=
  match m with
  | none => true
  | some m => (s.group m.group).opened.isSome

/-- Step 8 of R15. -/
def State.rankNotBelow (s : State) (m : Option GroupRank) : Bool :=
  match m with
  | none => true
  | some m =>
    match (s.group m.group).opened with
    | none => true
    | some o => o.next ≤ m.rank

/-- Step 9 of R15. -/
def State.rankVacant (s : State) (m : Option GroupRank) : Bool :=
  match m with
  | none => true
  | some m =>
    !s.rankHeld m.group m.rank &&
      (match (s.group m.group).opened with
        | none => true
        | some o => !o.ahead.contains m.rank)

/-- Step 10 of R15. -/
def State.slotSuits (s : State) (d : Descriptor) : Bool :=
  let r := s.slot d.address.aisle d.address.pos
  if d.isStore then d.choice == .chosen || (r.condition != .occupied && decide (d.loadClass ≤ r.slotClass))
  else r.condition != .empty

/-- Step 11 of R15. -/
def State.slotUnreserved (s : State) (d : Descriptor) : Bool :=
  d.choice == .chosen || (s.slot d.address.aisle d.address.pos).reservation.isNone

/-- The checks of R15 in their order: the status of the first that fails. -/
def State.checkPost (s : State) (d : Descriptor) : Option Status :=
  firstFailing
    [ (s.phase != .loading, .wrongPhase)
    , (d.inRange, .badField)
    , ((s.aisle d.address.aisle).geometry.isSome, .noSuchAisle)
    , (s.descriptorFits d, .badField)
    , ((s.byTag d.tag).isNone, .duplicateTag)
    , (decide (Config.reservedRecords < s.freeCount), .tableFull)
    , (s.groupTakes d.groupRank, .groupClosed)
    , (s.rankNotBelow d.groupRank, .badField)
    , (s.rankVacant d.groupRank, .duplicateRank)
    , (s.slotSuits d, .slotConflict)
    , (s.slotUnreserved d, .slotReserved) ]

/-- The record a descriptor fills (R16). Its state and reason come from its evaluation, in the same event. -/
def Descriptor.record (d : Descriptor) : Job :=
  { tag := d.tag
    kind := if d.isStore then .store else .retrieve
    state := .pending
    reason := none
    aisle := d.address.aisle
    slot := if d.choice = .explicit then some d.address.pos else none
    target := none
    choice := if d.isStore then some d.choice else none
    loadClass := d.loadClass
    attr := d.attr
    priority := d.priority
    age := 0
    staged := if d.isStore then some d.staged else none
    group := d.groupRank
    link := none
    assignment := none
    withdrawRequested := false
    excluded := 0
    refusals := 0
    lastScore := none
    outcome := none }

/-- Step 1 of R16: the reservation on an explicit slot. -/
def State.reservePosted (s : State) (d : Descriptor) (i : Nat) : State :=
  if d.choice = .explicit then
    s.reserve d.address.aisle d.address.pos (if d.isStore then .into else .outOf) i
  else s

/-- Step 2 of R16: the Group Table is told of a new member. -/
def State.joinPosted (s : State) (d : Descriptor) : State :=
  match d.groupRank with
  | none => s
  | some m => s.joinGroup m.group

/-- A job that has passed its checks is taken (R16). -/
def State.takePost (s : State) (d : Descriptor) : State :=
  let i := s.lowestFree
  (((s.takeRecord i d.record).reservePosted d i).joinPosted d).evaluate i

/-- POST JOB at its owner (R15, R16). -/
def State.servePost (body : List Byte) (s : State) : Served :=
  let d := readDescriptor body 0
  match s.checkPost d with
  | some status => refuse s status
  | none =>
    let i := s.lowestFree
    accept (s.takePost d) (fun t => put2 i ++ t.putStateReason i ++ putOption 4 put4 (t.linkedTag i))

/-- POST_JOB (R15, R16). -/
def execPostJob (number : Byte) (body : List Byte) (s : State) : Host.Outcome State Fault Refusal :=
  let r : Request := ⟨0x10, number, body⟩
  .next (s.hostRequest r (fun t => t.handle r (State.servePost body)))

/-- What a batch has come to: the state, the number of entries taken, their part of the reply, and the status of the
entry that stopped it. -/
structure Batch where
  state : State
  taken : Nat
  entries : List Byte
  stopped : Option Status

/-- The entries of a POST BATCH from number `k` on, `count` of them, taken one by one (R17). Each is settled with the
jobs it collects before the next is considered. -/
def takeEntries (body : List Byte) : Nat → Nat → Batch → Batch
  | 0, _, b => b
  | count + 1, k, b =>
    let d := readDescriptor body (1 + 14 * k)
    match b.state.checkPost d with
    | some status => { b with stopped := some status }
    | none =>
      let i := b.state.lowestFree
      let t := (b.state.takePost d).settleEvaluations
      takeEntries body count (k + 1) ⟨t, b.taken + 1, b.entries ++ put2 i ++ t.putState i, none⟩

/-- POST BATCH at its owner (R17). A batch taken whole is answered with its entries alone, without the number taken and
the stopping status that a PARTIAL reply opens with (DEDUCED, assumption 24). -/
def State.serveBatch (body : List Byte) (s : State) : Served :=
  let count := byteAt body 0
  if count = 0 ∨ 16 < count then refuse s .badField
  else
    let b := takeEntries body count 0 ⟨s, 0, [], none⟩
    match b.stopped with
    | none => accept b.state (fun _ => b.entries)
    | some status => ⟨.partly, b.state, fun _ => put1 b.taken ++ put1 (statusCode status) ++ b.entries⟩

/-- POST_BATCH (R17). -/
def execPostBatch (number : Byte) (body : List Byte) (s : State) : Host.Outcome State Fault Refusal :=
  let r : Request := ⟨0x11, number, body⟩
  .next (s.hostRequest r (fun t => t.handle r (State.serveBatch body)))

/-! ## AMEND JOB and STAGE (R18, R19, R20) -/

/-- An amendment as it stands in a body: absent for a field that the field set does not name (R188). -/
structure Amendment where
  priority : Option Nat
  attr : Option Half
  staged : Option Nat
  deriving DecidableEq, Repr

def readAmendment (body : List Byte) : Amendment :=
  let set := byteAt body 4
  { priority := if set % 2 = 1 then some (byteAt body 5) else none
    attr := if set / 2 % 2 = 1 then some (BitVec.ofNat 16 (wordAt body 6)) else none
    staged := if set / 4 % 2 = 1 then some (byteAt body 8) else none }

/-- Step 2 of R18. -/
def Amendment.inRange (m : Amendment) : Bool :=
  (m.priority.isSome || m.attr.isSome || m.staged.isSome) &&
    (match m.priority with | some p => decide (p ≤ 7) | none => true) &&
    (match m.staged with | some v => decide (v ≤ 1) | none => true)

/-- Steps 2 to 5 of R18 for the record a tag names. -/
def Amendment.check (m : Amendment) (j : Job) : Option Status :=
  firstFailing
    [ (m.inRange, .badField)
    , (j.kind != .relocate && j.state != .done, .notAllowed)
    , (m.attr.isNone || j.state == .pending || j.state == .ready, .notAllowed)
    , (m.staged.isNone || (j.kind == .store && m.staged == some 1), .notAllowed) ]

/-- A STORE becomes staged, and is evaluated when it waited for that (R20). -/
def State.stageJob (s : State) (i : Nat) : State :=
  match s.job i with
  | none => s
  | some j =>
    if j.staged = some true then s
    else
      let t := s.setJob i { j with staged := some true }
      if j.state = .pending ∧ j.reason = some .notStaged then t.evaluate i else t

/-- The record with the named priority and attribute written and its excluded cranes emptied (R19). -/
def Job.amended (j : Job) (m : Amendment) : Job :=
  { j with priority := m.priority.getD j.priority, attr := m.attr.getD j.attr, excluded := 0 }

/-- An AMEND JOB of record `j` is a trigger of a pass (R70): the job is READY, or its link names a READY relocation. -/
def State.amendTells (s : State) (j : Job) : Bool :=
  j.state == .ready ||
    (match j.link with
      | none => false
      | some l =>
        match s.job l with
        | some k => k.kind == .relocate && k.state == .ready
        | none => false)

/-- AMEND JOB at its owner (R18, R19). -/
def State.serveAmend (body : List Byte) (s : State) : Served :=
  match s.byTag (longAt body 0) with
  | none => refuse s .unknownTag
  | some (i, j) =>
    let m := readAmendment body
    match m.check j with
    | some status => refuse s status
    | none =>
      let t := s.setJob i (j.amended m)
      let t := if m.staged.isSome then t.stageJob i else t
      let t := if s.amendTells j then t.tellDispatcher else t
      accept t (fun u => u.putAmendedJob i)

/-- AMEND_JOB (R18). -/
def execAmendJob (number : Byte) (body : List Byte) (s : State) : Host.Outcome State Fault Refusal :=
  let r : Request := ⟨0x12, number, body⟩
  .next (s.hostRequest r (fun t => t.handle r (State.serveAmend body)))

/-- STAGE at its owner (R20). -/
def State.serveStage (body : List Byte) (s : State) : Served :=
  match s.byTag (longAt body 0) with
  | none => refuse s .unknownTag
  | some (i, j) =>
    if j.kind ≠ .store ∨ j.state = .done then refuse s .notAllowed
    else accept (s.stageJob i) (fun t => t.putStateReason i)

/-- STAGE (R20). -/
def execStage (number : Byte) (body : List Byte) (s : State) : Host.Outcome State Fault Refusal :=
  let r : Request := ⟨0x13, number, body⟩
  .next (s.hostRequest r (fun t => t.handle r (State.serveStage body)))

/-! ## WITHDRAW JOB (R21, R22) -/

/-- Cancel wanted is set on the unfinished leg of job `i`, and its CANCEL sent when the line allows (R160, R119). -/
def State.wantCancel (s : State) (c : Fin 8) (i : Nat) : State :=
  (s.updateLine c (fun l => { l with trip := l.trip.map (fun t =>
    { t with legs := t.legs.map (fun g => if g.job = i ∧ ¬ g.finished then { g with cancelWanted := true } else g) }) })).sendWaiting c

/-- WITHDRAW JOB on an ORDERED or ACTIVE job (R22). -/
def State.requestWithdrawal (s : State) (i : Nat) (j : Job) : State :=
  if j.withdrawRequested then s
  else
    let t := s.setJob i { j with withdrawRequested := true }
    match j.state, j.assignment with
    | .active, some x => t.wantCancel x.crane i
    | _, _ => t

/-- The relocation that WITHDRAW JOB frees with its dependent (step 2 of R21): the one the link names, PENDING or
READY. -/
def State.relocationToFree (s : State) (j : Job) : Option Nat :=
  match j.kind, j.link with
  | .retrieve, some l =>
    match s.job l with
    | some k => if k.kind = .relocate ∧ (k.state = .pending ∨ k.state = .ready) then some l else none
    | none => none
  | _, _ => none

/-- WITHDRAW JOB on a PENDING or READY job (R21). -/
def State.withdrawWaiting (s : State) (i : Nat) (j : Job) : State :=
  let t := s.withdrawNow i
  match s.relocationToFree j with
  | none => t
  | some l => t.freeDirectly l

/-- WITHDRAW JOB at its owner (R21, R22). -/
def State.serveWithdraw (body : List Byte) (s : State) : Served :=
  match s.byTag (longAt body 0) with
  | none => refuse s .unknownTag
  | some (i, j) =>
    if j.kind = .relocate then refuse s .notAllowed
    else
      match j.state with
      | .pending => servedWithdrawal s i j
      | .ready => servedWithdrawal s i j
      | .ordered => accept (s.requestWithdrawal i j) (fun t => t.putState i)
      | .active => accept (s.requestWithdrawal i j) (fun t => t.putState i)
      | .stranded => refuse s .notAllowed
      | .done => refuse s .notAllowed
where
  /-- The withdrawal at once with its reply (R21). -/
  servedWithdrawal (s : State) (i : Nat) (j : Job) : Served :=
    accept (s.withdrawWaiting i j) (fun t =>
      t.putStateOutcome i ++
        putOption 4 put4 ((s.relocationToFree j).bind (fun l => (s.job l).map Job.tag)))

/-- WITHDRAW_JOB (R21, R22). -/
def execWithdrawJob (number : Byte) (body : List Byte) (s : State) : Host.Outcome State Fault Refusal :=
  let r : Request := ⟨0x14, number, body⟩
  .next (s.hostRequest r (fun t => t.handle r (State.serveWithdraw body)))

/-! ## QUERY JOB, NEXT DONE, RETIRE JOB (R24, R25, R26) -/

/-- QUERY JOB at its owner (R24). -/
def State.lookJob (body : List Byte) (s : State) : Status × List Byte :=
  match s.byTag (longAt body 0) with
  | none => (.unknownTag, [])
  | some (i, _) => (.ok, s.putQueriedJob i)

/-- QUERY_JOB (R24). -/
def execQueryJob (number : Byte) (body : List Byte) (s : State) : Host.Outcome State Fault Refusal :=
  let r : Request := ⟨0x15, number, body⟩
  .next (s.hostRequest r (fun t => t.handleQuery r (State.lookJob body)))

/-- NEXT DONE at its owner (R25). -/
def State.lookDone (s : State) : Status × List Byte :=
  match s.done with
  | [] => (.none, [])
  | i :: _ => (.ok, s.putQueriedJob i)

/-- NEXT_DONE (R25). -/
def execNextDone (number : Byte) (body : List Byte) (s : State) : Host.Outcome State Fault Refusal :=
  let r : Request := ⟨0x16, number, body⟩
  .next (s.hostRequest r (fun t => t.handleQuery r State.lookDone))

/-- A DONE record leaves the DONE list and becomes FREE (R26). -/
def State.retire (s : State) (i : Nat) : State :=
  ({ s with done := s.done.filter (fun k => k != i) }).freeRecord i

/-- RETIRE JOB at its owner (R26). -/
def State.serveRetire (body : List Byte) (s : State) : Served :=
  match s.byTag (longAt body 0) with
  | none => refuse s .unknownTag
  | some (i, j) => if j.state = .done then accept (s.retire i) (fun _ => []) else refuse s .notAllowed

/-- RETIRE_JOB (R26). -/
def execRetireJob (number : Byte) (body : List Byte) (s : State) : Host.Outcome State Fault Refusal :=
  let r : Request := ⟨0x17, number, body⟩
  .next (s.hostRequest r (fun t => t.handle r (State.serveRetire body)))

/-! ## RESOLVE JOB (R27) -/

/-- The host's verdict on STRANDED job `i` (the table of R27). -/
def State.resolve (s : State) (i : Nat) (j : Job) (v : Verdict) : State :=
  match v with
  | .completed => s.completeJob i j
  | .notMoved => s.enterReady i
  | .withdrawn => s.withdrawNow i

/-- RESOLVE JOB at its owner (R27). The reply gives the state and outcome the job entered by the verdict, whatever the
evaluations of the same event make of the record afterwards. -/
def State.serveResolve (body : List Byte) (s : State) : Served :=
  match s.byTag (longAt body 0) with
  | none => refuse s .unknownTag
  | some (i, j) =>
    match readVerdict (byteAt body 4) with
    | none => refuse s .badField
    | some v =>
      if j.state = .stranded then
        let t := s.resolve i j v
        accept t (fun _ => t.putStateOutcome i)
      else refuse s .notAllowed

/-- RESOLVE_JOB (R27). -/
def execResolveJob (number : Byte) (body : List Byte) (s : State) : Host.Outcome State Fault Refusal :=
  let r : Request := ⟨0x18, number, body⟩
  .next (s.hostRequest r (fun t => t.handle r (State.serveResolve body)))

end Sys2Proof.Machine
end

