-- ==== Sys2Proof/Machine/SlotRequests.lean ====
section
/-! DEFINITION. The host requests on aisle geometry and slots (Sections 2.1 and 2.7), and the meanings of SET_AISLE to
QUERY_SLOT. -/

namespace Sys2Proof.Machine

/-- A number read as an aisle, 0 to 15. -/
def readAisle (n : Nat) : Option (Fin 16) := if n < 16 then some (Fin.ofNat 16 n) else none

/-! ## SET AISLE (R31) -/

/-- The slot records of an aisle (R30). -/
def Aisle.slotCount (r : Aisle) : Nat :=
  match r.geometry with
  | some g => g.slots
  | none => 0

/-- The slot records of all configured aisles (R30). -/
def State.totalSlots (s : State) : Nat := allAisles.foldl (fun n a => n + (s.aisle a).slotCount) 0

/-- The slot records of every configured aisle but `a`. -/
def State.otherSlots (s : State) (a : Fin 16) : Nat :=
  allAisles.foldl (fun n b => if b = a then n else n + (s.aisle b).slotCount) 0

/-- The slot records listed for other aisles than `a`. -/
def State.slotsBesides (s : State) (a : Fin 16) : List (Nat × Slot) :=
  s.slots.filter (fun e => e.1 / 16384 != a.val)

/-- Configures aisle `a` afresh (R31, R94). -/
def State.configureAisle (s : State) (a : Fin 16) (g : Geometry) : State :=
  ({ s with slots := s.slotsBesides a }).setAisle a
    { geometry := some g, enabled := some true, lock := none, occupied := 0, free := g.slots }

/-- Makes aisle `a` not configured (R31, R94). -/
def State.unconfigureAisle (s : State) (a : Fin 16) : State :=
  ({ s with slots := s.slotsBesides a }).setAisle a Aisle.powerOn

/-- The body of SET AISLE's reply (R31). -/
def State.putAisleSizes (s : State) (a : Fin 16) : List Byte := put2 (s.aisle a).slotCount ++ put3 s.totalSlots

/-- The ranges of levels, bays, depths and default slot class (R30, R31). -/
def Geometry.inRange (g : Geometry) : Bool :=
  decide (1 ≤ g.levels) && decide (g.levels ≤ 32) && decide (1 ≤ g.bays) && decide (g.bays ≤ 128) &&
    decide (1 ≤ g.depths) && decide (g.depths ≤ 2) && decide (g.defaultClass ≤ 15)

/-- SET AISLE at its owner (R31). -/
def State.serveSetAisle (body : List Byte) (s : State) : Served :=
  match readAisle (byteAt body 0) with
  | none => refuse s .badField
  | some a =>
    let g : Geometry := ⟨byteAt body 1, byteAt body 2, byteAt body 3, byteAt body 4⟩
    if g.levels = 0 then accept (s.unconfigureAisle a) (fun t => t.putAisleSizes a)
    else if !g.inRange then refuse s .badField
    else if Config.maxSlotRecords < s.otherSlots a + g.slots then refuse s .geometryTooLarge
    else accept (s.configureAisle a g) (fun t => t.putAisleSizes a)

/-- SET_AISLE (R31). -/
def execSetAisle (number : Byte) (body : List Byte) (s : State) : Host.Outcome State Fault Refusal :=
  let r : Request := ⟨0x20, number, body⟩
  .next (s.hostRequest r (fun t => t.handlePlain r (State.serveSetAisle body)))

/-! ## LOAD SLOTS (R50) -/

/-- What a request writes into a slot: condition, slot class and pallet class, once all are in range. -/
structure SlotValues where
  condition : Condition
  slotClass : Nat
  pallet : Option Nat
  deriving DecidableEq, Repr

/-- The values at place `i` of a body, when they are in range; the pallet class is read for OCCUPIED only (R50,
R51). -/
def readSlotValues (body : List Byte) (i : Nat) : Option SlotValues :=
  match readCondition (byteAt body i) with
  | none => none
  | some .occupied =>
    if byteAt body (i + 1) ≤ 15 ∧ byteAt body (i + 2) ≤ 15
    then some ⟨.occupied, byteAt body (i + 1), some (byteAt body (i + 2))⟩ else none
  | some c => if byteAt body (i + 1) ≤ 15 then some ⟨c, byteAt body (i + 1), none⟩ else none

/-- The slot record with the values written and the unverified mark cleared, its reservation left in place (R50,
R52). -/
def Slot.written (r : Slot) (v : SlotValues) : Slot :=
  { r with condition := v.condition, slotClass := v.slotClass, pallet := v.pallet, unverified := false }

/-- A slot address names a slot of aisle `a` (R30). -/
def State.hasSlot (s : State) (a : Fin 16) (p : SlotPos) : Bool :=
  match (s.aisle a).geometry with
  | some g => g.holds p
  | none => false

/-- The entries of a LOAD SLOTS from number `k` on, `count` of them: the state, and the number taken. The first entry
that is refused stops the request (R50). -/
def loadEntries (a : Fin 16) (body : List Byte) : Nat → Nat → State → State × Nat
  | 0, k, s => (s, k)
  | count + 1, k, s =>
    let p := (readSlotAddress (tripleAt body (2 + 6 * k))).pos
    match readSlotValues body (5 + 6 * k) with
    | none => (s, k)
    | some v =>
      if s.hasSlot a p then loadEntries a body count (k + 1) (s.putSlot a p ((s.slot a p).written v)) else (s, k)

/-- LOAD SLOTS at its owner (R50). A load taken whole is answered with an empty body, without the number taken and the
stopping status that a PARTIAL reply carries (DEDUCED, assumption 24). -/
def State.serveLoadSlots (body : List Byte) (s : State) : Served :=
  let count := byteAt body 1
  if count = 0 ∨ 24 < count then refuse s .badField
  else
    match readAisle (byteAt body 0) with
    | none => refuse s .noSuchAisle
    | some a =>
      if (s.aisle a).geometry.isNone then refuse s .noSuchAisle
      else
        let r := loadEntries a body count 0 s
        if r.2 = count then accept r.1 (fun _ => [])
        else ⟨.partly, r.1, fun _ => put1 r.2 ++ put1 (statusCode .badField)⟩

/-- LOAD_SLOTS (R50). -/
def execLoadSlots (number : Byte) (body : List Byte) (s : State) : Host.Outcome State Fault Refusal :=
  let r : Request := ⟨0x21, number, body⟩
  .next (s.hostRequest r (fun t => t.handlePlain r (State.serveLoadSlots body)))

/-! ## SET SLOT (R51, R52) -/

/-- The reservation's job is PENDING with reason SLOT_BLOCKED (step 5 of R51). -/
def State.blockedHolder (s : State) (v : Reservation) : Option Job :=
  match s.job v.job with
  | some j => if j.state = .pending ∧ j.reason = some .slotBlocked then some j else none
  | none => none

/-- Step 5 of R51. -/
def State.mayBeSet (s : State) (r : Slot) : Bool :=
  match r.reservation with
  | none => true
  | some v => (s.blockedHolder v).isSome

/-- Step 6 of R51: the slot is no FRONT slot whose REAR a working job has reserved. -/
def State.rearAtRest (s : State) (a : Fin 16) (p : SlotPos) : Bool :=
  p.depth == .rear || !s.doubleDeep a ||
    (match (s.slot a (p.atDepth .rear)).reservation with
      | none => true
      | some v => !s.workingReservation v)

/-- Step 7 of R51: the new values suit the job that holds the slot. -/
def State.valuesSuit (s : State) (r : Slot) (v : SlotValues) : Bool :=
  match r.reservation with
  | none => true
  | some x =>
    match x.kind with
    | .outOf => v.condition != .empty
    | .into =>
      v.condition != .occupied &&
        (match s.job x.job with | some j => decide (j.loadClass ≤ v.slotClass) | none => true)

/-- SET SLOT at its owner (R51, R52). -/
def State.serveSetSlot (body : List Byte) (s : State) : Served :=
  let x := readSlotAddress (tripleAt body 0)
  let r := s.slot x.aisle x.pos
  match readSlotValues body 3 with
  | none => refuse s .badField
  | some v =>
    match firstFailing
      [ ((s.aisle x.aisle).geometry.isSome, .noSuchAisle)
      , (s.hasSlot x.aisle x.pos, .badField)
      , (s.mayBeSet r, .slotReserved)
      , (s.rearAtRest x.aisle x.pos, .slotReserved)
      , (s.valuesSuit r v, .slotConflict) ] with
    | some status => refuse s status
    | none => accept (s.changeSlot x.aisle x.pos true (r.written v)) (fun t => t.putSlotRecord x.aisle x.pos)

/-- SET_SLOT (R51, R52). -/
def execSetSlot (number : Byte) (body : List Byte) (s : State) : Host.Outcome State Fault Refusal :=
  let r : Request := ⟨0x22, number, body⟩
  .next (s.hostRequest r (fun t => t.handle r (State.serveSetSlot body)))

/-! ## QUERY SLOT (R53) -/

/-- QUERY SLOT at its owner (R53). -/
def State.lookSlot (body : List Byte) (s : State) : Status × List Byte :=
  let x := readSlotAddress (tripleAt body 0)
  if (s.aisle x.aisle).geometry.isNone then (.noSuchAisle, [])
  else if s.hasSlot x.aisle x.pos then (.ok, s.putSlotRecord x.aisle x.pos)
  else (.badField, [])

/-- QUERY_SLOT (R53). -/
def execQuerySlot (number : Byte) (body : List Byte) (s : State) : Host.Outcome State Fault Refusal :=
  let r : Request := ⟨0x23, number, body⟩
  .next (s.hostRequest r (fun t => t.handleQuery r (State.lookSlot body)))

end Sys2Proof.Machine
end

