-- ==== Sys2Proof/Machine/DispatchRequests.lean ====
section
/-! DEFINITION. The host requests on dispatch (Sections 3.2 and 3.7) and on sequence groups (Section 4.6), and the
meanings of SET_HOLD_FILTER to QUERY_GROUP. -/

namespace Sys2Proof.Machine

/-! ## SET HOLD FILTER, SET WEIGHTS, QUERY DISPATCH (R59, R76, R77) -/

/-- Writes hold filter entry `n`. -/
def State.setFilter (s : State) (n : Fin 8) (f : HoldFilter) : State :=
  { s with disp := { s.disp with filters := s.disp.filters.set n.val f n.isLt } }

/-- SET HOLD FILTER at its owner (R59); it is a trigger of a pass. -/
def State.serveSetFilter (body : List Byte) (s : State) : Served :=
  match readFlag (byteAt body 1) with
  | none => refuse s .badField
  | some enabled =>
    if 7 < byteAt body 0 then refuse s .badField
    else
      let n : Fin 8 := Fin.ofNat 8 (byteAt body 0)
      let f : HoldFilter := ⟨enabled, BitVec.ofNat 16 (wordAt body 2), BitVec.ofNat 16 (wordAt body 4)⟩
      accept ((s.setFilter n f).tellDispatcher) (fun _ => putFilter n.val f)

/-- SET_HOLD_FILTER (R59). -/
def execSetHoldFilter (number : Byte) (body : List Byte) (s : State) : Host.Outcome State Fault Refusal :=
  let r : Request := ⟨0x30, number, body⟩
  .next (s.hostRequest r (fun t => t.handlePlain r (State.serveSetFilter body)))

/-- The weights as SET WEIGHTS writes them (R76). -/
def readWeights (body : List Byte) (dual : Bool) : Weights :=
  ⟨min 255 (wordAt body 0), min 8191 (wordAt body 2), wordAt body 4, wordAt body 6, dual⟩

/-- At least one weight was brought to its bound (R76). -/
def weightsClamped (body : List Byte) : Bool := decide (255 < wordAt body 0) || decide (8191 < wordAt body 2)

/-- SET WEIGHTS at its owner (R76). It is no trigger. -/
def State.serveSetWeights (body : List Byte) (s : State) : Served :=
  match readFlag (byteAt body 8) with
  | none => refuse s .badField
  | some dual =>
    let w := readWeights body dual
    accept { s with disp := { s.disp with weights := w } } (fun _ => putFlag (weightsClamped body) ++ w.put)

/-- SET_WEIGHTS (R76). -/
def execSetWeights (number : Byte) (body : List Byte) (s : State) : Host.Outcome State Fault Refusal :=
  let r : Request := ⟨0x31, number, body⟩
  .next (s.hostRequest r (fun t => t.handlePlain r (State.serveSetWeights body)))

/-- QUERY_DISPATCH (R77). -/
def execQueryDispatch (number : Byte) (body : List Byte) (s : State) : Host.Outcome State Fault Refusal :=
  let r : Request := ⟨0x32, number, body⟩
  .next (s.hostRequest r (fun t => t.handleQuery r (fun u => (.ok, u.disp.put))))

/-! ## Group requests (R88, R89, R90, R91) -/

/-- A number read as a group, 1 to 16. -/
def readGroup (n : Nat) : Option (Fin 16) := if 1 ≤ n ∧ n ≤ 16 then some (Fin.ofNat 16 (n - 1)) else none

/-- A group as OPEN GROUP opens it (R88). -/
def openedGroup (first window stallLimit : Nat) : Group :=
  ⟨0, some ⟨first, clampTo 1 32 window, [], stallLimit, 0, false⟩⟩

/-- OPEN GROUP at its owner (R88). -/
def State.serveOpenGroup (body : List Byte) (s : State) : Served :=
  match readGroup (byteAt body 0) with
  | none => refuse s .badField
  | some g =>
    if wordAt body 1 = 0 then refuse s .badField
    else if (s.group g).opened.isSome then refuse s .notAllowed
    else
      let window := byteAt body 3
      let r := openedGroup (wordAt body 1) window (wordAt body 4)
      accept (s.setGroup g r) (fun _ => putFlag (decide (window = 0 ∨ 32 < window)) ++ r.put)

/-- OPEN_GROUP (R88). -/
def execOpenGroup (number : Byte) (body : List Byte) (s : State) : Host.Outcome State Fault Refusal :=
  let r : Request := ⟨0x40, number, body⟩
  .next (s.hostRequest r (fun t => t.handlePlain r (State.serveOpenGroup body)))

/-- CLOSE GROUP at its owner (R89). -/
def State.serveCloseGroup (body : List Byte) (s : State) : Served :=
  match readGroup (byteAt body 0) with
  | none => refuse s .badField
  | some g =>
    if (s.group g).opened.isNone then accept s (fun _ => [])
    else if (s.group g).members = 0 then accept (s.setGroup g .closed) (fun _ => [])
    else refuse s .notAllowed

/-- CLOSE_GROUP (R89). -/
def execCloseGroup (number : Byte) (body : List Byte) (s : State) : Host.Outcome State Fault Refusal :=
  let r : Request := ⟨0x41, number, body⟩
  .next (s.hostRequest r (fun t => t.handlePlain r (State.serveCloseGroup body)))

/-- Step 3 of R90. -/
def OpenGroup.maySkip (o : OpenGroup) (rank : Nat) : Bool :=
  decide (o.next ≤ rank) && decide (rank ≤ o.next + 31) && decide (rank ≤ 65535)

/-- SKIP RANK at its owner (R90). A rank that its member's completion has already taken below the next rank is refused
with BAD_FIELD by step 3 of R90, where R92 speaks of a reply OK (DESIGN CHOICE, assumption 33). -/
def State.serveSkipRank (body : List Byte) (s : State) : Served :=
  match readGroup (byteAt body 0) with
  | none => refuse s .badField
  | some g =>
    match (s.group g).opened with
    | none => refuse s .groupClosed
    | some o =>
      let rank := wordAt body 1
      if !o.maySkip rank then refuse s .badField
      else if s.rankHeld g rank then refuse s .notAllowed
      else if o.ahead.contains rank then accept s (fun t => (t.group g).putSkipped)
      else accept (s.finishRank g rank) (fun t => (t.group g).putSkipped)

/-- SKIP_RANK (R90). -/
def execSkipRank (number : Byte) (body : List Byte) (s : State) : Host.Outcome State Fault Refusal :=
  let r : Request := ⟨0x42, number, body⟩
  .next (s.hostRequest r (fun t => t.handlePlain r (State.serveSkipRank body)))

/-- QUERY GROUP at its owner (R91). -/
def State.lookGroup (body : List Byte) (s : State) : Status × List Byte :=
  match readGroup (byteAt body 0) with
  | none => (.badField, [])
  | some g => (.ok, s.putQueriedGroup g)

/-- QUERY_GROUP (R91). -/
def execQueryGroup (number : Byte) (body : List Byte) (s : State) : Host.Outcome State Fault Refusal :=
  let r : Request := ⟨0x43, number, body⟩
  .next (s.hostRequest r (fun t => t.handleQuery r (State.lookGroup body)))

end Sys2Proof.Machine
end

