-- ==== Sys2Proof/Machine/AisleCarRequests.lean ====
section
/-! DEFINITION. The host requests on aisles and the car (Sections 5.1, 5.7 and 5.8), and the meanings of
SET_AISLE_ENABLE to RESTART_CAR_LINE. -/

namespace Sys2Proof.Machine

/-- The enabled field of an aisle is written; a change from NO to YES is a trigger of a pass (R95, R70). -/
def State.enableAisle (s : State) (a : Fin 16) (enabled : Bool) : State :=
  let t := s.setAisle a { s.aisle a with enabled := some enabled }
  if enabled && (s.aisle a).enabled == some false then t.tellDispatcher else t

/-- SET AISLE ENABLE at its owner (R95). -/
def State.serveAisleEnable (body : List Byte) (s : State) : Served :=
  match readAisle (byteAt body 0), readFlag (byteAt body 1) with
  | some a, some enabled =>
    if (s.aisle a).geometry.isNone then refuse s .noSuchAisle
    else accept (s.enableAisle a enabled) (fun t => (t.aisle a).put)
  | _, _ => refuse s .badField

/-- SET_AISLE_ENABLE (R95). -/
def execSetAisleEnable (number : Byte) (body : List Byte) (s : State) : Host.Outcome State Fault Refusal :=
  let r : Request := ⟨0x50, number, body⟩
  .next (s.hostRequest r (fun t => t.handlePlain r (State.serveAisleEnable body)))

/-- QUERY AISLE at its owner (R96). -/
def State.lookAisle (body : List Byte) (s : State) : Status × List Byte :=
  match readAisle (byteAt body 0) with
  | none => (.badField, [])
  | some a => (.ok, (s.aisle a).putQueried)

/-- QUERY_AISLE (R96). -/
def execQueryAisle (number : Byte) (body : List Byte) (s : State) : Host.Outcome State Fault Refusal :=
  let r : Request := ⟨0x51, number, body⟩
  .next (s.hostRequest r (fun t => t.handleQuery r (State.lookAisle body)))

/-- The car as SET CAR writes it (R112). -/
def Car.configure (k : Car) (body : List Byte) : Car :=
  { k with
    configured := true
    c0 := min 60000 (wordAt body 0)
    c1 := min 30000 (wordAt body 2)
    timeout := clampTo 10 600 (wordAt body 4) }

/-- At least one value of SET CAR was brought to a bound (R112). -/
def carClamped (body : List Byte) : Bool :=
  decide (60000 < wordAt body 0) || decide (30000 < wordAt body 2) || decide (wordAt body 4 < 10) ||
    decide (600 < wordAt body 4)

/-- SET CAR at its owner (R112): a running car job timer takes the new timeout (R109), and the queue is served if R105
allows. -/
def State.serveSetCar (body : List Byte) (s : State) : Served :=
  accept ((s.updateCar (fun k => k.configure body)).checkCarJob.serveQueue) (fun t =>
    putFlag (carClamped body) ++ put2 t.car.c0 ++ put2 t.car.c1 ++ put2 t.car.timeout)

/-- SET_CAR (R112). -/
def execSetCar (number : Byte) (body : List Byte) (s : State) : Host.Outcome State Fault Refusal :=
  let r : Request := ⟨0x52, number, body⟩
  .next (s.hostRequest r (fun t => t.handle r (State.serveSetCar body)))

/-- QUERY_CAR (R113). -/
def execQueryCar (number : Byte) (body : List Byte) (s : State) : Host.Outcome State Fault Refusal :=
  let r : Request := ⟨0x53, number, body⟩
  .next (s.hostRequest r (fun t => t.handleQuery r (fun u => (.ok, u.car.put))))

/-- RESTART_CAR_LINE (R111). -/
def execRestartCarLine (number : Byte) (body : List Byte) (s : State) : Host.Outcome State Fault Refusal :=
  let r : Request := ⟨0x54, number, body⟩
  .next (s.hostRequest r (fun t => t.handle r (fun u => accept u.restartCar (fun _ => []))))

end Sys2Proof.Machine
end

