-- ==== Sys2Proof/Machine/LineCraneRequests.lean ====
section
/-! DEFINITION. The host requests on crane lines (Section 6.7), crane contexts (Section 7.5) and counters (Section
7.8), and the meanings of SET_LINES to READ_COUNTERS. -/

namespace Sys2Proof.Machine

/-- A number read as a crane, 0 to 7. -/
def readCrane (n : Nat) : Option (Fin 8) := if n < 8 then some (Fin.ofNat 8 n) else none

/-! ## SET LINES and RESTART LINE (R133, R134) -/

/-- The settings as SET LINES writes them (R133). -/
def readSettings (body : List Byte) : LineSettings :=
  ⟨clampTo 50 2000 (wordAt body 0), min 7 (byteAt body 2), clampTo 200 10000 (wordAt body 3)⟩

/-- At least one value of SET LINES was brought to a bound (R133). -/
def settingsClamped (body : List Byte) : Bool :=
  decide (wordAt body 0 < 50) || decide (2000 < wordAt body 0) || decide (7 < byteAt body 2) ||
    decide (wordAt body 3 < 200) || decide (10000 < wordAt body 3)

/-- The three values of SET LINES' reply (R133). -/
def LineSettings.put (k : LineSettings) : List Byte := put2 k.tack ++ put1 k.resendLimit ++ put2 k.pollInterval

/-- SET LINES at its owner (R133). Timers that run keep their periods. -/
def State.serveSetLines (body : List Byte) (s : State) : Served :=
  accept { s with settings := readSettings body } (fun t => putFlag (settingsClamped body) ++ t.settings.put)

/-- SET_LINES (R133). -/
def execSetLines (number : Byte) (body : List Byte) (s : State) : Host.Outcome State Fault Refusal :=
  let r : Request := ⟨0x60, number, body⟩
  .next (s.hostRequest r (fun t => t.handlePlain r (State.serveSetLines body)))

/-- RESTART LINE on crane line `c` (R134, R135, R99, R163). -/
def State.restartLine (s : State) (c : Fin 8) : State :=
  (((s.strandTrip c).dropExchanges c).send c .restart).updateLine c (fun l =>
    { l with link := .absent, introTimer := none, notReady := false, reconcileDue := false, strandedCheck := false })

/-- RESTART LINE at its owner (R134). -/
def State.serveRestartLine (body : List Byte) (s : State) : Served :=
  match readCrane (byteAt body 0) with
  | none => refuse s .badField
  | some c => accept (s.restartLine c) (fun _ => [])

/-- RESTART_LINE (R134). -/
def execRestartLine (number : Byte) (body : List Byte) (s : State) : Host.Outcome State Fault Refusal :=
  let r : Request := ⟨0x61, number, body⟩
  .next (s.hostRequest r (fun t => t.handle r (State.serveRestartLine body)))

/-! ## SET CRANE, CLEAR FAULTS, QUERY CRANE (R144, R145, R146) -/

/-- The context as SET CRANE writes it (R144). -/
def Context.setMarks (x : Context) (disabled clearDrain : Bool) (detect latch : EightSet) : Context :=
  { x with
    disabled := disabled
    drained := x.drained && !clearDrain
    detect := detect
    latch := latch
    active := x.active &&& detect }

/-- SET CRANE at its owner (R144). -/
def State.serveSetCrane (body : List Byte) (s : State) : Served :=
  match readCrane (byteAt body 0), readFlag (byteAt body 1), readFlag (byteAt body 2) with
  | some c, some disabled, some clearDrain =>
    accept ((s.updateCtx c (fun x => x.setMarks disabled clearDrain (BitVec.ofNat 8 (byteAt body 3))
      (BitVec.ofNat 8 (byteAt body 4)))).noteLine c) (fun t => (t.line c).ctx.putMarks)
  | _, _, _ => refuse s .badField

/-- SET_CRANE (R144). -/
def execSetCrane (number : Byte) (body : List Byte) (s : State) : Host.Outcome State Fault Refusal :=
  let r : Request := ⟨0x70, number, body⟩
  .next (s.hostRequest r (fun t => t.handle r (State.serveSetCrane body)))

/-- CLEAR FAULTS at its owner (R145): the latched kinds that are not active leave the latched set. -/
def State.serveClearFaults (body : List Byte) (s : State) : Served :=
  match readCrane (byteAt body 0) with
  | none => refuse s .badField
  | some c =>
    accept ((s.updateCtx c (fun x => { x with latched := x.latched &&& x.active })).noteLine c)
      (fun t => (t.line c).ctx.putFaults)

/-- CLEAR_FAULTS (R145). -/
def execClearFaults (number : Byte) (body : List Byte) (s : State) : Host.Outcome State Fault Refusal :=
  let r : Request := ⟨0x71, number, body⟩
  .next (s.hostRequest r (fun t => t.handle r (State.serveClearFaults body)))

/-- QUERY CRANE at its owner (R146). -/
def State.lookCrane (body : List Byte) (s : State) : Status × List Byte :=
  match readCrane (byteAt body 0) with
  | none => (.badField, [])
  | some c => (.ok, s.putCrane c)

/-- QUERY_CRANE (R146). -/
def execQueryCrane (number : Byte) (body : List Byte) (s : State) : Host.Outcome State Fault Refusal :=
  let r : Request := ⟨0x72, number, body⟩
  .next (s.hostRequest r (fun t => t.handleQuery r (State.lookCrane body)))

/-! ## SET COUNTERS and READ COUNTERS (R151, R152) -/

/-- The counter at place `i` of a SET COUNTERS body, when its fields are in range (R151). -/
def readCounter (body : List Byte) (i : Nat) : Option Counter :=
  match readCounterMode (byteAt body (i + 1)), readFlag (byteAt body (i + 2)) with
  | some m, some d =>
    if byteAt body i ≤ 15 ∧ tripleAt body (i + 3) ≤ Config.counterMax
    then some ⟨byteAt body i, m, d, tripleAt body (i + 3), false⟩ else none
  | _, _ => none

/-- The four counters and two combine flags of a SET COUNTERS body, when every field is in range (R151). -/
def readCounters (body : List Byte) : Option Counters :=
  match readCounter body 1, readCounter body 7, readCounter body 13, readCounter body 19,
    readFlag (byteAt body 25), readFlag (byteAt body 26) with
  | some a0, some b0, some a1, some b1, some c0, some c1 => some ⟨a0, b0, a1, b1, c0, c1⟩
  | _, _, _, _, _, _ => none

def State.setCounters (s : State) (c : Fin 8) (k : Counters) : State := s.updateLine c (fun l => { l with counters := k })

/-- SET COUNTERS at its owner (R151). -/
def State.serveSetCounters (body : List Byte) (s : State) : Served :=
  match readCrane (byteAt body 0), readCounters body with
  | some c, some k => accept (s.setCounters c k) (fun _ => k.put)
  | _, _ => refuse s .badField

/-- SET_COUNTERS (R151). -/
def execSetCounters (number : Byte) (body : List Byte) (s : State) : Host.Outcome State Fault Refusal :=
  let r : Request := ⟨0x73, number, body⟩
  .next (s.hostRequest r (fun t => t.handlePlain r (State.serveSetCounters body)))

/-- A counter with value 0 and overflow CLEAR (R152). -/
def Counter.cleared (k : Counter) : Counter := { k with value := 0, overflow := false }

/-- The four counters cleared (R152). -/
def Counters.cleared (k : Counters) : Counters :=
  { k with a0 := k.a0.cleared, b0 := k.b0.cleared, a1 := k.a1.cleared, b1 := k.b1.cleared }

/-- READ COUNTERS at its owner (R152): the reply gives the counters as they stood before the clearing. -/
def State.serveReadCounters (body : List Byte) (s : State) : Served :=
  match readCrane (byteAt body 0), readFlag (byteAt body 1) with
  | some c, some clear =>
    let k := (s.line c).counters
    accept (if clear then s.setCounters c k.cleared else s) (fun _ => k.put)
  | _, _ => refuse s .badField

/-- READ_COUNTERS (R152). -/
def execReadCounters (number : Byte) (body : List Byte) (s : State) : Host.Outcome State Fault Refusal :=
  let r : Request := ⟨0x74, number, body⟩
  .next (s.hostRequest r (fun t => t.handlePlain r (State.serveReadCounters body)))

end Sys2Proof.Machine
end

