-- ==== Sys2Proof/Machine/RunRequests.lean ====
section
/-! DEFINITION. The alert requests (Section 9.6), the run requests (Section 10.2), power-on and reset (Section 10.4),
and the meanings of READ_ALERTS to RESET_TAKES_EFFECT and of POWER_ON. -/

namespace Sys2Proof.Machine

/-! ## Alerts (R175, R176, R177) -/

/-- READ_ALERTS (R175). -/
def execReadAlerts (number : Byte) (body : List Byte) (s : State) : Host.Outcome State Fault Refusal :=
  let r : Request := ⟨0x80, number, body⟩
  .next (s.hostRequest r (fun t => t.handleQuery r (fun u => (.ok, u.host.putAlertState))))

/-- The port with another alert set and mask, ATTENTION following (R178). -/
def HostPort.withAlerts (h : HostPort) (alerts mask : AlertSet) : HostPort :=
  let k : HostPort := { h with alerts := alerts, mask := mask }
  { k with attention := k.wantsAttention }

/-- The alert set after a clearing of the selected alerts (R176): a summary alert whose condition is held stays. -/
def HostPort.clearedAlerts (h : HostPort) (selection : AlertSet) : AlertSet :=
  h.alerts &&& ~~~(selection &&& ~~~h.conditions)

/-- CLEAR ALERTS at its owner (R176). Bits 10 to 15 of the selection are not read (R187). -/
def State.serveClearAlerts (body : List Byte) (s : State) : Served :=
  let now := s.host.clearedAlerts (BitVec.ofNat 10 (wordAt body 0))
  accept { s with host := s.host.withAlerts now s.host.mask } (fun _ => putAlerts s.host.alerts ++ putAlerts now)

/-- CLEAR_ALERTS (R176). -/
def execClearAlerts (number : Byte) (body : List Byte) (s : State) : Host.Outcome State Fault Refusal :=
  let r : Request := ⟨0x81, number, body⟩
  .next (s.hostRequest r (fun t => t.handlePlain r (State.serveClearAlerts body)))

/-- SET ALERT MASK at its owner (R177). -/
def State.serveAlertMask (body : List Byte) (s : State) : Served :=
  if 1024 ≤ wordAt body 0 then refuse s .badField
  else
    accept { s with host := s.host.withAlerts s.host.alerts (BitVec.ofNat 10 (wordAt body 0)) } (fun t =>
      putAlerts t.host.mask ++ putFlag t.host.attention)

/-- SET_ALERT_MASK (R177). -/
def execSetAlertMask (number : Byte) (body : List Byte) (s : State) : Host.Outcome State Fault Refusal :=
  let r : Request := ⟨0x82, number, body⟩
  .next (s.hostRequest r (fun t => t.handlePlain r (State.serveAlertMask body)))

/-! ## The run requests (R181, R182) -/

/-- The number of configured aisles. -/
def State.configuredAisles (s : State) : Nat := (allAisles.filter (fun a => (s.aisle a).geometry.isSome)).length

/-- START at its owner (R181), a trigger of a pass. It leaves the crane lines, every counter and the port's state as they
stand (R181, R147, R179): a crane that becomes eligible by the new phase is no counted entry of IDLE-eligible, code 12, at
this event (DEDUCED, assumption 37). -/
def State.serveStart (s : State) : Served :=
  if s.configuredAisles = 0 then refuse s .notAllowed
  else if 2 ≤ s.configuredAisles ∧ ¬ s.car.configured then refuse s .notAllowed
  else accept ({ s with phase := .running, clock := ⟨0, 0⟩ }).tellDispatcher State.putRun

/-- START (R181). -/
def execStart (number : Byte) (body : List Byte) (s : State) : Host.Outcome State Fault Refusal :=
  let r : Request := ⟨0x90, number, body⟩
  .next (s.hostRequest r (fun t => t.handlePlain r State.serveStart))

/-- HALT (R182). It leaves every counter and the port's state as they stand (R147, R179), and makes no state input hold. -/
def execHalt (number : Byte) (body : List Byte) (s : State) : Host.Outcome State Fault Refusal :=
  let r : Request := ⟨0x91, number, body⟩
  .next (s.hostRequest r (fun t => t.handlePlain r (fun u => accept { u with phase := .halted } State.putRun)))

/-- RESUME (R182), a trigger of a pass. Like START it leaves every counter and the port's state as they stand (R147, R179;
DEDUCED, assumption 37). -/
def execResume (number : Byte) (body : List Byte) (s : State) : Host.Outcome State Fault Refusal :=
  let r : Request := ⟨0x92, number, body⟩
  .next (s.hostRequest r (fun t =>
    t.handlePlain r (fun u => accept ({ u with phase := .running }).tellDispatcher State.putRun)))

/-! ## Reset and power-on (R184, R185) -/

/-- RESET CONTROLLER (R185): the reply comes first; the reset is due. -/
def execResetController (number : Byte) (body : List Byte) (s : State) : Host.Outcome State Fault Refusal :=
  let r : Request := ⟨0x93, number, body⟩
  .next (s.hostRequest r (fun t => t.handlePlain r (fun u => accept { u with resetDue := true } (fun _ => []))))

/-- A line after the reset: power-on values, and RESTART sent on it (steps 1 and 2 of R185). -/
def Line.afterReset (l : Line) : Line := { Line.powerOn with sent := l.sent ++ [.restart] }

/-- The car line after the reset. -/
def Car.afterReset (k : Car) : Car := { Car.powerOn with sent := k.sent ++ [.restart] }

/-- The reset takes effect (R185): every block takes its power-on values, the held flag from the HOLD input as it
stands; RESTART goes out on all nine lines; the request list and any frame being gathered are discarded. What has been
sent stays sent (assumption 4). -/
def State.afterReset (s : State) : State :=
  { State.powerOn s.disp.holdInput with
    pending := s.pending
    host := { HostPort.powerOn with replies := s.host.replies }
    car := s.car.afterReset
    lines := s.lines.map Line.afterReset }

/-- RESET_TAKES_EFFECT (R185): the reset that an answered RESET CONTROLLER asked for. -/
def execResetTakesEffect (s : State) : Host.Outcome State Fault Refusal :=
  .next (if s.resetDue then s.afterReset else s)

/-- POWER_ON (R184): every block at its power-on values. No RESTART is sent. -/
def execPowerOn (level : HoldLevel) (s : State) : Host.Outcome State Fault Refusal :=
  .next { State.powerOn level with pending := s.pending }

end Sys2Proof.Machine
end

