-- ==== Sys2Proof/Machine/Dispatch.lean ====
section
/-! DEFINITION. One arm for each command, each a direct call of its meaning. -/

namespace Sys2Proof.Machine

def exec (i : Instr) (s : State) : Host.Outcome State Fault Refusal :=
  match i with
  | .powerOn level => Sys2Proof.Machine.execPowerOn level s
  | .hostFrameReceived bytes => Sys2Proof.Machine.execHostFrameReceived bytes s
  | .hostFrameGapTimeout => Sys2Proof.Machine.execHostFrameGapTimeout s
  | .unknownRequestCode code number body => Sys2Proof.Machine.execUnknownRequestCode code number body s
  | .postJob number body => Sys2Proof.Machine.execPostJob number body s
  | .postBatch number body => Sys2Proof.Machine.execPostBatch number body s
  | .amendJob number body => Sys2Proof.Machine.execAmendJob number body s
  | .stage number body => Sys2Proof.Machine.execStage number body s
  | .withdrawJob number body => Sys2Proof.Machine.execWithdrawJob number body s
  | .queryJob number body => Sys2Proof.Machine.execQueryJob number body s
  | .nextDone number body => Sys2Proof.Machine.execNextDone number body s
  | .retireJob number body => Sys2Proof.Machine.execRetireJob number body s
  | .resolveJob number body => Sys2Proof.Machine.execResolveJob number body s
  | .setAisle number body => Sys2Proof.Machine.execSetAisle number body s
  | .loadSlots number body => Sys2Proof.Machine.execLoadSlots number body s
  | .setSlot number body => Sys2Proof.Machine.execSetSlot number body s
  | .querySlot number body => Sys2Proof.Machine.execQuerySlot number body s
  | .setHoldFilter number body => Sys2Proof.Machine.execSetHoldFilter number body s
  | .setWeights number body => Sys2Proof.Machine.execSetWeights number body s
  | .queryDispatch number body => Sys2Proof.Machine.execQueryDispatch number body s
  | .openGroup number body => Sys2Proof.Machine.execOpenGroup number body s
  | .closeGroup number body => Sys2Proof.Machine.execCloseGroup number body s
  | .skipRank number body => Sys2Proof.Machine.execSkipRank number body s
  | .queryGroup number body => Sys2Proof.Machine.execQueryGroup number body s
  | .setAisleEnable number body => Sys2Proof.Machine.execSetAisleEnable number body s
  | .queryAisle number body => Sys2Proof.Machine.execQueryAisle number body s
  | .setCar number body => Sys2Proof.Machine.execSetCar number body s
  | .queryCar number body => Sys2Proof.Machine.execQueryCar number body s
  | .restartCarLine number body => Sys2Proof.Machine.execRestartCarLine number body s
  | .setLines number body => Sys2Proof.Machine.execSetLines number body s
  | .restartLine number body => Sys2Proof.Machine.execRestartLine number body s
  | .setCrane number body => Sys2Proof.Machine.execSetCrane number body s
  | .clearFaults number body => Sys2Proof.Machine.execClearFaults number body s
  | .queryCrane number body => Sys2Proof.Machine.execQueryCrane number body s
  | .setCounters number body => Sys2Proof.Machine.execSetCounters number body s
  | .readCounters number body => Sys2Proof.Machine.execReadCounters number body s
  | .readAlerts number body => Sys2Proof.Machine.execReadAlerts number body s
  | .clearAlerts number body => Sys2Proof.Machine.execClearAlerts number body s
  | .setAlertMask number body => Sys2Proof.Machine.execSetAlertMask number body s
  | .start number body => Sys2Proof.Machine.execStart number body s
  | .halt number body => Sys2Proof.Machine.execHalt number body s
  | .resume number body => Sys2Proof.Machine.execResume number body s
  | .resetController number body => Sys2Proof.Machine.execResetController number body s
  | .resetTakesEffect => Sys2Proof.Machine.execResetTakesEffect s
  | .basePage crane more content => Sys2Proof.Machine.execBasePage crane more content s
  | .nextPage crane toggle more content => Sys2Proof.Machine.execNextPage crane toggle more content s
  | .introductionTimerExpiry crane => Sys2Proof.Machine.execIntroductionTimerExpiry crane s
  | .orderAck crane trip => Sys2Proof.Machine.execOrderAck crane trip s
  | .orderNak crane trip reason => Sys2Proof.Machine.execOrderNak crane trip reason s
  | .status crane mode aisle bay level flags faults trip leg => Sys2Proof.Machine.execStatus crane mode aisle bay level flags faults trip leg s
  | .legDone crane trip leg outcome position => Sys2Proof.Machine.execLegDone crane trip leg outcome position s
  | .cancelAnswer crane trip leg verdict => Sys2Proof.Machine.execCancelAnswer crane trip leg verdict s
  | .telegramDiscarded line bytes => Sys2Proof.Machine.execTelegramDiscarded line bytes s
  | .telegramGapTimeout line => Sys2Proof.Machine.execTelegramGapTimeout line s
  | .answerTimerExpiry crane => Sys2Proof.Machine.execAnswerTimerExpiry crane s
  | .pollIntervalExpiry crane => Sys2Proof.Machine.execPollIntervalExpiry crane s
  | .carAck order => Sys2Proof.Machine.execCarAck order s
  | .carNak order reason => Sys2Proof.Machine.execCarNak order reason s
  | .phase order phase => Sys2Proof.Machine.execPhase order phase s
  | .carStatus mode position fault order lastPhase => Sys2Proof.Machine.execCarStatus mode position fault order lastPhase s
  | .carAnswerTimerExpiry => Sys2Proof.Machine.execCarAnswerTimerExpiry s
  | .carPollIntervalExpiry => Sys2Proof.Machine.execCarPollIntervalExpiry s
  | .carJobTimeout => Sys2Proof.Machine.execCarJobTimeout s
  | .holdInputChange level => Sys2Proof.Machine.execHoldInputChange level s
  | .holdSettlingExpiry => Sys2Proof.Machine.execHoldSettlingExpiry s
  | .dispatchClockTick => Sys2Proof.Machine.execDispatchClockTick s
  | .stallLimitReached group => Sys2Proof.Machine.execStallLimitReached group s
  | .counterOverflow crane counter => Sys2Proof.Machine.execCounterOverflow crane counter s
  | .dispatchPass => Sys2Proof.Machine.execDispatchPass s

end Sys2Proof.Machine
end

