-- ==== Sys2Proof/Safety.lean ====
section
/-! DEFINITION. What counts as a sound state, and the terms in which statements say what an event leaves unchanged. -/

namespace Sys2Proof.Machine

/-- Between events: nothing gathered waits to be settled; each summary condition is as the blocks' state gives it
(R173); ATTENTION is asserted exactly when the alert set and the mask have a member in common (R178). -/
structure State.Settled (s : State) : Prop where
  scratch : s.scratch = .empty
  conditions : s.host.conditions = s.heldConditions
  attention : s.host.attention = s.host.wantsAttention

/-- The turn of a request has come, or its frame meets an empty request list (assumption 3). -/
def State.hasTurn (s : State) (r : Request) : Prop := s.host.requests = [] ∨ s.host.requests.head? = some r

/-- A line without what the end of an event may change in it: its counters and the drained mark (R150). -/
def Line.bare (l : Line) : Line := { l with counters := .powerOn, ctx := { l.ctx with drained := false } }

/-- The port without what the end of an event changes in it: alerts, conditions and ATTENTION. -/
def HostPort.bare (h : HostPort) : HostPort := { h with alerts := 0, conditions := 0, attention := false }

/-- The state without what the end of an event may change when no job is evaluated: the counters and drained marks, the
alerts with their conditions and ATTENTION, and the passes the Dispatcher has been told of. -/
def State.bare (s : State) : State :=
  { s with
    host := s.host.bare
    disp := { s.disp with passesDue := 0 }
    lines := s.lines.map Line.bare
    scratch := .empty }

/-- Every alert of `s` stands in `t`, and `t` has been told of at least as many passes. -/
def State.Grows (s t : State) : Prop := s.host.alerts &&& ~~~t.host.alerts = 0 ∧ s.disp.passesDue ≤ t.disp.passesDue

/-- The command completes: it answers a next state that is settled, that is `u` but for what the end of an event may
change, in which every alert of `u` is set and every pass that `u` has been told of is due. -/
def Completes (i : Instr) (s u : State) : Prop :=
  ∃ t, exec i s = .next t ∧ t.Settled ∧ t.bare = u.bare ∧ u.Grows t

/-- No job waits PENDING, so that no change collects one (R43). -/
def State.NothingPending (s : State) : Prop := ∀ e ∈ s.jobs, e.2.state ≠ .pending

/-- The record that the descriptor of a RETRIEVE fills (R16), in state READY. -/
def Descriptor.readyRetrieve (d : Descriptor) : Job :=
  { tag := d.tag
    kind := .retrieve
    state := .ready
    reason := none
    aisle := d.address.aisle
    slot := some d.address.pos
    target := none
    choice := none
    loadClass := d.loadClass
    attr := d.attr
    priority := d.priority
    age := 0
    staged := none
    group := d.groupRank
    link := none
    assignment := none
    withdrawRequested := false
    excluded := 0
    refusals := 0
    lastScore := none
    outcome := none }

/-- The relocation that R4 and R42 make for the RETRIEVE of descriptor `d` in record `i`: record `idx`, for the pallet of
class `k` that stands in the FRONT slot `front`, to `target`. -/
def Descriptor.relocation (d : Descriptor) (i idx : Nat) (front target : SlotPos) (k : Nat) : Job :=
  { tag := 0x80000000 + idx
    kind := .relocate
    state := .ready
    reason := none
    aisle := d.address.aisle
    slot := some front
    target := some target
    choice := none
    loadClass := k
    attr := d.attr
    priority := d.priority
    age := 0
    staged := none
    group := none
    link := some i
    assignment := none
    withdrawRequested := false
    excluded := 0
    refusals := 0
    lastScore := none
    outcome := none }

/-- The record of a job that has entered DONE (R9). -/
def Job.ended (j : Job) (o : JobOutcome) : Job :=
  { j with state := .done, reason := none, assignment := none, link := none, outcome := some o }

/-- Job `j` of record `i` has entered DONE at the tail of the DONE list, and JOB_DONE is raised (R9, R10). -/
def State.endsIn (s : State) (i : Nat) (j : Job) (o : JobOutcome) : State :=
  ({ s.setJob i (j.ended o) with done := s.done ++ [i] }).raise .jobDone

/-- Job `j` of record `i` waits READY for another crane, and the Dispatcher is told (R7). -/
def State.readyAgain (s : State) (i : Nat) (j : Job) : State :=
  (s.setJob i { j with state := .ready, reason := none, assignment := none }).tellDispatcher

/-- The slots of a relocation, each held by its reservation (R34). -/
structure State.Moves (s : State) (i : Nat) (j : Job) (p q : SlotPos) : Prop where
  kind : j.kind = .relocate
  source : j.slot = some p
  target : j.target = some q
  apart : slotKey j.aisle p ≠ slotKey j.aisle q
  out : (s.slot j.aisle p).reservation = some ⟨.outOf, i⟩
  into : (s.slot j.aisle q).reservation = some ⟨.into, i⟩
  choice : j.choice = none
  group : j.group = none

/-- The slot of a STORE, held by its IN (R34). -/
structure State.Stores (s : State) (i : Nat) (j : Job) (p : SlotPos) : Prop where
  kind : j.kind = .store
  slot : j.slot = some p
  target : j.target = none
  held : (s.slot j.aisle p).reservation = some ⟨.into, i⟩
  group : j.group = none
  link : j.link = none

/-- The slot of a RETRIEVE, held by its OUT (R34). -/
structure State.Retrieves (s : State) (i : Nat) (j : Job) (p : SlotPos) : Prop where
  kind : j.kind = .retrieve
  slot : j.slot = some p
  target : j.target = none
  held : (s.slot j.aisle p).reservation = some ⟨.outOf, i⟩
  choice : j.choice = none
  link : j.link = none

/-- What a LEG DONE with an outcome and a load position makes of job `j` of record `i` and of its slots, while no job
waits PENDING (the table of R157 with R46, R47, R48 and R156). -/
inductive LegEffect (s : State) (i : Nat) (j : Job) : Nat → Nat → State → Prop
  /-- STORE COMPLETED (R46). -/
  | stored {p : SlotPos} {position : Nat} : s.Stores i j p →
      LegEffect s i j 1 position ((s.putSlot j.aisle p { s.slot j.aisle p with
        condition := .occupied, pallet := some j.loadClass, reservation := none }).endsIn i j .completed)
  /-- SLOT_OCCUPIED of an EXPLICIT STORE (R46). -/
  | storeRefused {p : SlotPos} {position : Nat} : s.Stores i j p → j.choice = some .explicit →
      LegEffect s i j 3 position ((s.putSlot j.aisle p { s.slot j.aisle p with
        condition := .occupied, pallet := some 15, reservation := none, unverified := true }).endsIn i j .slotOccupied)
  /-- SLOT_OCCUPIED of a CHOSEN STORE, whose withdrawal is not asked for, when store choice finds another slot (R46). -/
  | storeChosenAgain {p q : SlotPos} {position : Nat} {u : State} : s.Stores i j p → j.choice = some .chosen →
      j.staged = some true → j.withdrawRequested = false →
      u = (s.putSlot j.aisle p { s.slot j.aisle p with
        condition := .occupied, pallet := some 15, reservation := none, unverified := true }).setJob i
          { j with slot := none } →
      u.chooseSlot j.aisle j.loadClass (0, 0) none = some q →
      LegEffect s i j 3 position ((u.putSlot j.aisle q { u.slot j.aisle q with
        reservation := some ⟨.into, i⟩ }).readyAgain i { j with slot := some q })
  /-- The same with a withdrawal asked for (R8, R45). -/
  | storeChosenWithdrawn {p : SlotPos} {position : Nat} : s.Stores i j p → j.choice = some .chosen →
      j.withdrawRequested = true →
      LegEffect s i j 3 position ((s.putSlot j.aisle p { s.slot j.aisle p with
        condition := .occupied, pallet := some 15, reservation := none, unverified := true }).endsIn i
          { j with slot := none } .withdrawn)
  /-- SLOT_OCCUPIED of a CHOSEN STORE when store choice finds no other slot (R46). -/
  | storeWithoutRoom {p : SlotPos} {position : Nat} {u : State} : s.Stores i j p → j.choice = some .chosen →
      j.staged = some true → j.withdrawRequested = false → j.state ≠ .pending →
      u = (s.putSlot j.aisle p { s.slot j.aisle p with
        condition := .occupied, pallet := some 15, reservation := none, unverified := true }).setJob i
          { j with slot := none } →
      u.chooseSlot j.aisle j.loadClass (0, 0) none = none →
      LegEffect s i j 3 position ((u.setJob i { j with
        slot := none, state := .pending, reason := some .noRoom, assignment := none }).raise .noRoom)
  /-- LOAD_REFUSED (R46): a CHOSEN store gives up its slot. -/
  | loadRefused {p : SlotPos} {position : Nat} : s.Stores i j p →
      LegEffect s i j 6 position ((s.putSlot j.aisle p { s.slot j.aisle p with reservation := none }).endsIn i
        { j with slot := if j.choice = some .chosen then none else some p } .loadRefused)
  /-- RETRIEVE COMPLETED (R47), of a job without group. -/
  | retrieved {p : SlotPos} {position : Nat} : s.Retrieves i j p → j.group = none →
      LegEffect s i j 1 position ((s.putSlot j.aisle p { s.slot j.aisle p with
        condition := .empty, pallet := none, reservation := none }).endsIn i j .completed)
  /-- RETRIEVE COMPLETED at the next rank of its group, with nothing done ahead (R81, R82, R83). -/
  | rankRetrieved {p : SlotPos} {position r : Nat} {g : Fin 16} {o : OpenGroup} : s.Retrieves i j p →
      j.group = some ⟨g, r⟩ → (s.group g).opened = some o → o.next = r → r < 65535 → o.ahead = [] →
      LegEffect s i j 1 position (((s.putSlot j.aisle p { s.slot j.aisle p with
        condition := .empty, pallet := none, reservation := none }).endsIn i j .completed).setGroup g
          ⟨(s.group g).members - 1,
            some { o with next := r + 1, stallTimer := 0, stallReported := false }⟩).tellDispatcher
  /-- SLOT_EMPTY of a RETRIEVE (R47). -/
  | retrieveEmpty {p : SlotPos} {position : Nat} : s.Retrieves i j p → j.group = none →
      LegEffect s i j 4 position ((s.putSlot j.aisle p { s.slot j.aisle p with
        condition := .empty, pallet := none, reservation := none, unverified := true }).endsIn i j .slotEmpty)
  /-- RELOCATE COMPLETED (R48). -/
  | moved {p q : SlotPos} {position : Nat} : s.Moves i j p q → j.link = none →
      LegEffect s i j 1 position (((s.putSlot j.aisle p { s.slot j.aisle p with
        condition := .empty, pallet := none, reservation := none }).putSlot j.aisle q { s.slot j.aisle q with
        condition := .occupied, pallet := some j.loadClass, reservation := none }).endsIn i j .completed)
  /-- SLOT_EMPTY of a RELOCATE (R48). -/
  | moveEmpty {p q : SlotPos} {position : Nat} : s.Moves i j p q → j.link = none →
      LegEffect s i j 4 position (((s.putSlot j.aisle p { s.slot j.aisle p with
        condition := .empty, pallet := none, reservation := none, unverified := true }).putSlot j.aisle q
        { s.slot j.aisle q with reservation := none }).endsIn i j .slotEmpty)
  /-- TARGET_OCCUPIED (R48). -/
  | moveBlocked {p q : SlotPos} {position : Nat} : s.Moves i j p q → j.link = none →
      LegEffect s i j 5 position (((s.putSlot j.aisle q { s.slot j.aisle q with
        condition := .occupied, pallet := some 15, reservation := none, unverified := true }).putSlot j.aisle p
        { s.slot j.aisle p with reservation := none }).endsIn i j .targetOccupied)
  /-- CANCELLED, or ABORTED with NOT_MOVED, of a job whose withdrawal is not asked for: it waits READY with its
  reservations kept (R157). -/
  | returned {outcome position : Nat} : outcome = 7 ∨ outcome = 8 ∧ position = 1 → j.withdrawRequested = false →
      (j.kind = .relocate → j.link ≠ none) → LegEffect s i j outcome position (s.readyAgain i j)
  /-- The same of a relocation without a dependent: it becomes FREE (R12). -/
  | moveDropped {p q : SlotPos} {outcome position : Nat} : outcome = 7 ∨ outcome = 8 ∧ position = 1 →
      j.withdrawRequested = false → s.Moves i j p q → j.link = none →
      LegEffect s i j outcome position (((s.putSlot j.aisle p { s.slot j.aisle p with reservation := none }).putSlot
        j.aisle q { s.slot j.aisle q with reservation := none }).freeRecord i)
  /-- The same of a RETRIEVE whose withdrawal is asked for: DONE WITHDRAWN (R8). -/
  | retrieveWithdrawn {p : SlotPos} {outcome position : Nat} : outcome = 7 ∨ outcome = 8 ∧ position = 1 →
      j.withdrawRequested = true → s.Retrieves i j p → j.group = none →
      LegEffect s i j outcome position ((s.putSlot j.aisle p { s.slot j.aisle p with
        reservation := none }).endsIn i j .withdrawn)
  /-- The same of a STORE whose withdrawal is asked for. -/
  | storeWithdrawn {p : SlotPos} {outcome position : Nat} : outcome = 7 ∨ outcome = 8 ∧ position = 1 →
      j.withdrawRequested = true → s.Stores i j p →
      LegEffect s i j outcome position ((s.putSlot j.aisle p { s.slot j.aisle p with reservation := none }).endsIn i
        { j with slot := if j.choice = some .chosen then none else some p } .withdrawn)
  /-- ABORTED with any other load position, and an outcome that the kind of the job does not allow: STRANDED, the
  assignment and the reservations kept (R156, R157). -/
  | strands {outcome position : Nat} :
      outcome = 8 ∧ position ≠ 1 ∨ outcome = 0 ∨ outcome = 2 ∨ 8 < outcome ∨ outcome = 3 ∧ j.kind ≠ .store ∨
        outcome = 4 ∧ j.kind = .store ∨ outcome = 5 ∧ j.kind ≠ .relocate ∨ outcome = 6 ∧ j.kind ≠ .store →
      LegEffect s i j outcome position ((s.setJob i { j with state := .stranded }).raise .stranded)

/-- The fault kinds that a STATUS makes newly active: detected now, and not active before (R141). -/
def Context.newlyActive (x : Context) (r : StatusReport) : EightSet := r.faults &&& x.detect &&& ~~~x.active

/-- The crane context after a STATUS that reports aisle `z` (R138, R139, R140, R141). Bit 3 is the kind POSITION. -/
def Context.reported (x : Context) (r : StatusReport) (z : Fin 16) : Context :=
  { x with
    mode := r.mode
    nakFault := false
    active := r.faults &&& x.detect
    latched := x.latched ||| (r.faults &&& x.detect &&& x.latch)
    aisle := .inAisle z
    position := some (r.bay, r.level)
    referenced := r.referenced && !(x.newlyActive r &&& 8 != 0)
    atHead := r.atHead
    tripInHand := r.trip
    legInProgress := r.leg }

/-- An OPEN group with a live member when a second of the dispatch clock has been counted (R87). -/
def OpenGroup.secondLater (o : OpenGroup) : OpenGroup :=
  { o with
    stallTimer := min 65535 (o.stallTimer + 1)
    stallReported := o.stallReported || decide (o.stallLimit ≠ 0 ∧ o.stallLimit ≤ min 65535 (o.stallTimer + 1)) }

/-- A group when a second of the dispatch clock has been counted: CLOSED, or without members, it stands still (R87). -/
def Group.secondLater (g : Group) : Group :=
  if g.members = 0 then g else { g with opened := g.opened.map OpenGroup.secondLater }

/-- The next second of the dispatch clock reports the group's stall (R87). -/
def Group.stallsNext (g : Group) : Bool :=
  match g.opened with
  | none => false
  | some o => decide (g.members ≠ 0) && !o.stallReported && o.secondLater.stallReported

/-- The records stand in rising index, so that equal tables are equal lists. -/
def rising {α : Type} : List (Nat × α) → Bool
  | [] => true
  | [_] => true
  | x :: y :: rest => decide (x.1 < y.1) && rising (y :: rest)

/-- The Slot Map is in its one form: keys strictly rising and within the sixteen aisles, and no entry equal to the fresh
record that an unlisted slot of its aisle holds. -/
def State.slotsCanonical (s : State) : Bool :=
  rising s.slots &&
    s.slots.all (fun e => decide (e.1 < 16 * 16384) &&
      decide (e.2 ≠ freshSlot (s.defaultClass (Fin.ofNat 16 (e.1 / 16384)))))

/-- The first law (R5): the FREE count and the records that are not FREE make up the table of 512, and at most 480 of the
records hold a STORE or a RETRIEVE. -/
def State.tableLaw (s : State) : Bool :=
  rising s.jobs && s.jobs.all (fun e => decide (e.1 < 512)) && s.freeCount + s.jobs.length == 512 &&
    decide ((s.jobs.filter (fun e => e.2.kind != .relocate)).length ≤ 480)

/-- A list without repeats. -/
def noRepeats : List Nat → Bool
  | [] => true
  | x :: xs => !xs.contains x && noRepeats xs

/-- Record `i` is DONE. -/
def State.isDone (s : State) (i : Nat) : Bool :=
  match s.job i with
  | some j => j.state == .done
  | none => false

/-- The sixth law (R10): the DONE list holds each DONE record exactly once and no other. -/
def State.doneLaw (s : State) : Bool :=
  noRepeats s.done && s.done.all s.isDone && s.jobs.all (fun e => e.2.state != .done || s.done.contains e.1)

/-- Record `i` is ORDERED or ACTIVE for leg `index` of trip `n` of crane `c` (R7, R73). -/
def State.worksAs (s : State) (i : Nat) (c : Fin 8) (n index : Nat) : Bool :=
  match s.job i with
  | some j => (j.state == .ordered || j.state == .active) && j.assignment == some ⟨c, n, index⟩
  | none => false

/-- The unfinished legs of a trip of crane `c` name different records, each ORDERED or ACTIVE with that leg as its
assignment. -/
def State.legsHold (s : State) (c : Fin 8) (t : Trip) : Bool :=
  noRepeats t.openJobs && (t.legs.filter (fun g => !g.finished)).all (fun g => s.worksAs g.job c t.number g.index)

/-- What the fifth law (R153) says of the legs: every trip's unfinished legs are the work of their records. -/
def State.legLaw (s : State) : Bool :=
  allCranes.all (fun c => match (s.line c).trip with | some t => s.legsHold c t | none => true)

/-- The aisles whose lock crane `c` holds. -/
def State.locksOf (s : State) (c : Fin 8) : List (Fin 16) := allAisles.filter (s.holdsLock c)

/-- The fourth law (R97): a crane holds at most two aisle locks. That an aisle has at most one holder is the form of its
record. -/
def State.lockLaw (s : State) : Bool := allCranes.all (fun c => decide ((s.locksOf c).length ≤ 2))

/-- Where crane `c` may be bound: the to aisle of its trip's transfer, that of the car's current request for it, and the
aisles of the STRANDED jobs from which a trip may be rebuilt (R100). -/
def State.destinations (s : State) (c : Fin 8) : List (Fin 16) :=
  (match (s.line c).trip with
    | some t => (t.transfer.map Transfer.toAisle).toList
    | none => []) ++
  (match s.car.current with
    | some r => if r.crane = c then [r.toAisle] else []
    | none => []) ++
  s.jobs.filterMap (fun e => if e.2.strandedOn c then some e.2.aisle else none)

/-- Every crane is bound for one aisle at most, and an eligible one holds no lock but that of the aisle it stands in
(R97, R100). -/
def State.OneDestination (s : State) : Prop :=
  ∀ c, (∀ a ∈ s.destinations c, ∀ b ∈ s.destinations c, a = b) ∧
    (s.eligible c = true → ∀ a, s.holdsLock c a = true → (s.line c).ctx.aisle = .inAisle a)

/-- The ranks that the live members of group `g` hold (R79). -/
def State.liveRanks (s : State) (g : Fin 16) : List Nat :=
  s.jobs.filterMap (fun e =>
    match e.2.group with
    | some m => if m.group = g ∧ e.2.state ≠ .done then some m.rank else none
    | none => none)

/-- The ranks of the members of group `g` that are ORDERED, ACTIVE or STRANDED. -/
def State.releasedRanks (s : State) (g : Fin 16) : List Nat :=
  s.jobs.filterMap (fun e =>
    match e.2.group with
    | some m =>
      if m.group = g ∧ (e.2.state = .ordered ∨ e.2.state = .active ∨ e.2.state = .stranded) then some m.rank else none
    | none => none)

/-- The seventh law for one OPEN group (R85), with what keeps it: members hold different ranks up to 65535 (R15), the
window is 1 to 32 (R88), and the done-ahead set stands in ascending order (R79). -/
def State.openGroupHolds (s : State) (g : Fin 16) (o : OpenGroup) : Bool :=
  noRepeats (s.liveRanks g) && (s.liveRanks g).all (fun r => decide (o.next ≤ r ∧ r ≤ 65535)) &&
    decide (1 ≤ o.window ∧ o.window ≤ 32) && (s.releasedRanks g).all (fun r => decide (r < o.next + o.window)) &&
    o.ahead.all (fun r => decide (o.next < r ∧ r ≤ o.next + 31) && !(s.liveRanks g).contains r) &&
    rising (o.ahead.map (fun r => (r, ())))

/-- The seventh law (R85): each OPEN group is as it says, a CLOSED one has no live members, the live member count counts
them (R79), and RETRIEVEs alone are members. -/
def State.groupLaw (s : State) : Bool :=
  allGroups.all (fun g => decide ((s.group g).members = (s.liveRanks g).length) &&
    (match (s.group g).opened with
      | none => (s.liveRanks g).isEmpty
      | some o => s.openGroupHolds g o)) &&
    s.jobs.all (fun e => e.2.kind == .retrieve || e.2.group.isNone)

/-- Record `i` is that of a job in aisle `a`. -/
def State.liesIn (s : State) (a : Fin 16) (i : Nat) : Bool :=
  match s.job i with
  | some j => j.aisle == a
  | none => false

/-- All that is left of trip `n` of crane `c`, its STRANDED jobs and the unfinished legs of the trip record, lies in aisle
`a` (R73). -/
def State.tripLiesIn (s : State) (c : Fin 8) (n : Nat) (a : Fin 16) : Bool :=
  (s.strandedTrip c n).all (s.liesIn a) &&
    (match (s.line c).trip with
      | some t => t.number != n || t.openJobs.all (s.liesIn a)
      | none => true)

/-- A trip stands while its crane's link is UP, the work state follows it (R153), and it lies in one aisle, which is where
its transfer leads. -/
def State.tripHolds (s : State) (c : Fin 8) (t : Trip) : Bool :=
  (s.line c).link == .up && (s.line c).ctx.work == (if t.accepted then .busy else .ordering) &&
  t.openJobs.all (fun i => allAisles.any (fun a => s.liesIn a i && s.tripLiesIn c t.number a)) &&
    (match t.transfer with
      | some y => s.tripLiesIn c t.number y.toAisle
      | none => true)

/-- An entry of the car queue is that of a trip whose transfer is QUEUED for its to aisle (R104). -/
def State.entryHolds (s : State) (e : CarRequest) : Bool :=
  match (s.line e.crane).trip.bind Trip.transfer with
  | some y => y.stage == .queued && y.toAisle == e.toAisle
  | none => false

/-- The current request is for no crane of the queue, what is left of its trip lies in its to aisle, and the crane's
transfer leads there while the crane holds that trip (R104, R105). -/
def State.requestHolds (s : State) (r : CurrentRequest) : Bool :=
  !(s.car.queue.map CarRequest.crane).contains r.crane && s.tripLiesIn r.crane r.trip r.toAisle &&
    (!(s.line r.crane).holdsTrip r.trip ||
      (match (s.line r.crane).trip.bind Trip.transfer with
        | some y => y.toAisle == r.toAisle
        | none => false))

/-- The eighth law (R104): the car queue holds at most one entry for each crane, so at most 8, and never the request being
served; with what keeps it, that trips, requests and STRANDED jobs of one trip agree in their aisle. -/
def State.carLaw (s : State) : Bool :=
  noRepeats (s.car.queue.map (fun e => e.crane.val)) && s.car.queue.all s.entryHolds &&
    (match s.car.current with | some r => s.requestHolds r | none => true) &&
    allCranes.all (fun c => match (s.line c).trip with | some t => s.tripHolds c t | none => true) &&
    s.jobs.all (fun e =>
      e.2.state != .stranded ||
        (match e.2.assignment with
          | some x => s.tripLiesIn x.crane x.trip e.2.aisle
          | none => true))

end Sys2Proof.Machine
end

