-- ==== Sys2Proof/WellFormed.lean ====
section
/-! DEFINITION. The request a command carries, and when a command's operands are ones that the manual's layouts can
carry as that command (R187, R188, R189). The meanings take every operand: an ill-formed request is refused and an
ill-formed telegram discarded, by the manual's own rules. -/

namespace Sys2Proof

/-- The request frame that a request command stands for: its code by R188, its number and its body. -/
def Instr.request : Instr → Option Machine.Request
  | .powerOn _ => none
  | .hostFrameReceived _ => none
  | .hostFrameGapTimeout => none
  | .unknownRequestCode code n b => some ⟨code, n, b⟩
  | .postJob n b => some ⟨0x10, n, b⟩
  | .postBatch n b => some ⟨0x11, n, b⟩
  | .amendJob n b => some ⟨0x12, n, b⟩
  | .stage n b => some ⟨0x13, n, b⟩
  | .withdrawJob n b => some ⟨0x14, n, b⟩
  | .queryJob n b => some ⟨0x15, n, b⟩
  | .nextDone n b => some ⟨0x16, n, b⟩
  | .retireJob n b => some ⟨0x17, n, b⟩
  | .resolveJob n b => some ⟨0x18, n, b⟩
  | .setAisle n b => some ⟨0x20, n, b⟩
  | .loadSlots n b => some ⟨0x21, n, b⟩
  | .setSlot n b => some ⟨0x22, n, b⟩
  | .querySlot n b => some ⟨0x23, n, b⟩
  | .setHoldFilter n b => some ⟨0x30, n, b⟩
  | .setWeights n b => some ⟨0x31, n, b⟩
  | .queryDispatch n b => some ⟨0x32, n, b⟩
  | .openGroup n b => some ⟨0x40, n, b⟩
  | .closeGroup n b => some ⟨0x41, n, b⟩
  | .skipRank n b => some ⟨0x42, n, b⟩
  | .queryGroup n b => some ⟨0x43, n, b⟩
  | .setAisleEnable n b => some ⟨0x50, n, b⟩
  | .queryAisle n b => some ⟨0x51, n, b⟩
  | .setCar n b => some ⟨0x52, n, b⟩
  | .queryCar n b => some ⟨0x53, n, b⟩
  | .restartCarLine n b => some ⟨0x54, n, b⟩
  | .setLines n b => some ⟨0x60, n, b⟩
  | .restartLine n b => some ⟨0x61, n, b⟩
  | .setCrane n b => some ⟨0x70, n, b⟩
  | .clearFaults n b => some ⟨0x71, n, b⟩
  | .queryCrane n b => some ⟨0x72, n, b⟩
  | .setCounters n b => some ⟨0x73, n, b⟩
  | .readCounters n b => some ⟨0x74, n, b⟩
  | .readAlerts n b => some ⟨0x80, n, b⟩
  | .clearAlerts n b => some ⟨0x81, n, b⟩
  | .setAlertMask n b => some ⟨0x82, n, b⟩
  | .start n b => some ⟨0x90, n, b⟩
  | .halt n b => some ⟨0x91, n, b⟩
  | .resume n b => some ⟨0x92, n, b⟩
  | .resetController n b => some ⟨0x93, n, b⟩
  | .resetTakesEffect => none
  | .basePage _ _ _ => none
  | .nextPage _ _ _ _ => none
  | .introductionTimerExpiry _ => none
  | .orderAck _ _ => none
  | .orderNak _ _ _ => none
  | .status _ _ _ _ _ _ _ _ _ => none
  | .legDone _ _ _ _ _ => none
  | .cancelAnswer _ _ _ _ => none
  | .telegramDiscarded _ _ => none
  | .telegramGapTimeout _ => none
  | .answerTimerExpiry _ => none
  | .pollIntervalExpiry _ => none
  | .carAck _ => none
  | .carNak _ _ => none
  | .phase _ _ => none
  | .carStatus _ _ _ _ _ => none
  | .carAnswerTimerExpiry => none
  | .carPollIntervalExpiry => none
  | .carJobTimeout => none
  | .holdInputChange _ => none
  | .holdSettlingExpiry => none
  | .dispatchClockTick => none
  | .stallLimitReached _ => none
  | .counterOverflow _ _ => none
  | .dispatchPass => none

/-- The body length of a request agrees with R188, or for a code that names no request fits a frame (R186). -/
def requestFits (r : Machine.Request) : Bool :=
  match Machine.requestRow r.code with
  | some _ => Machine.lengthAgrees r.code r.body
  | none => decide (r.body.length ≤ 253)

/-- The coded fields and ranges of a telegram are ones that R187 and R189 take. -/
def Instr.telegramFits : Instr → Bool
  | .basePage _ _ content => (Machine.readFlag (Machine.pageByte content 3)).isSome
  | .orderNak _ _ reason => (Machine.readNakReason reason.toNat).isSome
  | .status _ mode aisle bay level flags faults trip leg =>
    (Machine.readStatus mode aisle bay level flags faults trip leg).isSome
  | .cancelAnswer _ _ _ verdict => (Machine.readCancelVerdict verdict.toNat).isSome
  | .carNak _ reason => (Machine.readCarRefusal reason.toNat).isSome
  | .phase _ p => (Machine.readCarPhase p.toNat).isSome
  | .carStatus mode position fault order lastPhase =>
    (Machine.readCarStatus mode position fault order lastPhase).isSome
  | _ => true

/-- A code named unknown names no request (R170). -/
def Instr.unknownCodeFits : Instr → Bool
  | .unknownRequestCode code _ _ => (Machine.requestRow code).isNone
  | _ => true

/-- The command is well formed. -/
def Instr.wellFormed (i : Instr) : Bool :=
  i.telegramFits && i.unknownCodeFits && (match i.request with | some r => requestFits r | none => true)

end Sys2Proof
end

