-- ==== Sys2Proof/Certificates/Slice0/Obligations.lean ====
section
/-! DEFINITION. The statements for the provers. `Completes i s u` (Sys2Proof/Safety.lean) says that the command answers a
next state: settled, the state `u` but for counters, drained marks, alerts with their conditions and ATTENTION, and told
passes, with every alert of `u` set and every pass told in `u` due. Request statements start from `s.popRequest`: the
request whose turn has come has left the list (step 1 of R170), and with an empty list that is `s` itself. How the model
holds what it takes and sends is its own, in every statement that speaks of it: what a request command stands for
(assumption 3, in `hasTurn`), the replies and the telegrams sent (assumption 4), the passes told (assumption 10), and the
periods that running timers have (assumption 23). -/

open Sys2Proof Sys2Proof.Machine

/-! ## The machine as a whole -/

/-- One step is the meaning of the command at the front of the queue, on the state with the queue's rest. The queue is
the model's (assumption 1). -/
def Obligations.StepRunsTheFrontCommand : Prop :=
  ∀ (c : Instr) (rest : List Instr) (s : State), s.pending = c :: rest → step s = exec c { s with pending := rest }

/-- R173, R178: from every settled state, every step leaves a settled one. Each summary condition is as the blocks give
it, ATTENTION is asserted exactly when the alert set and the mask share a member, and nothing is left to settle. -/
def Obligations.EveryStepKeepsSettled : Prop :=
  ∀ s t : State, s.Settled → step s = .next t → t.Settled

/-- The first law of the device (R5): from every state whose records stand in rising index below 512, make up with the
FREE count the table of 512, and hold at most 480 STOREs and RETRIEVEs, every step leaves such a state. The sixth law
(R10): from such a state in which the DONE list holds each DONE record exactly once and no other, and in which the
unfinished legs of every trip are the ORDERED or ACTIVE work of different records (R153), every step leaves one of the
same kind. The Slot Map, held as the records that differ from fresh ones, keeps its one form. From such a state every step
keeps the seventh law (R85): in an OPEN group each live member's rank is at least the next rank, an ORDERED, ACTIVE or
STRANDED one below the next rank plus the window, and each done-ahead rank lies from the next rank plus 1 to plus 31 and is
no live member's; a CLOSED group has no live members. And it keeps the eighth law (R104): at most one entry for each
crane in the car queue, so at most 8, and never the request being served. Both stand with what keeps them: different
ranks, the count of members (R79), and one aisle for all that is left of a trip. The fourth law (R97), at most two locks
for a crane, is kept by every step from a state in which every crane is bound for one aisle at most and an eligible one
holds no lock but that of where it stands; without these the rules of Chapter 5 do not keep it (assumption 39). A row of
discarded bytes, which may carry several telegrams, is left out of that clause alone. -/
def Obligations.EveryStepKeepsTheFirstLaw : Prop :=
  ∀ s t : State, step s = .next t →
    (s.tableLaw = true → t.tableLaw = true) ∧
    (s.tableLaw = true → s.legLaw = true → s.doneLaw = true → t.legLaw = true ∧ t.doneLaw = true) ∧
    (s.slotsCanonical = true → t.slotsCanonical = true) ∧
    (s.tableLaw = true → s.legLaw = true → s.doneLaw = true → s.groupLaw = true → t.groupLaw = true) ∧
    (s.tableLaw = true → s.legLaw = true → s.doneLaw = true → s.carLaw = true → t.carLaw = true) ∧
    (s.lockLaw = true → s.OneDestination → (∀ l b rest, s.pending ≠ .telegramDiscarded l b :: rest) →
      t.lockLaw = true)

/-- The state after power-on meets every invariant, whatever level the HOLD input stands at (R11, R93, R114, R135, R153,
R179). `State.reset` takes the level RELEASED (assumption 2). -/
def Obligations.PowerOnMeetsTheInvariants : Prop :=
  (State.reset.Settled ∧ State.reset.tableLaw = true ∧ State.reset.legLaw = true ∧ State.reset.doneLaw = true ∧
    State.reset.slotsCanonical = true ∧ State.reset.groupLaw = true ∧ State.reset.carLaw = true ∧
    State.reset.lockLaw = true) ∧
  ∀ level : HoldLevel, (State.powerOn level).Settled ∧ (State.powerOn level).tableLaw = true ∧
    (State.powerOn level).legLaw = true ∧ (State.powerOn level).doneLaw = true ∧
    (State.powerOn level).slotsCanonical = true ∧ (State.powerOn level).groupLaw = true ∧
    (State.powerOn level).carLaw = true ∧ (State.powerOn level).lockLaw = true

/-- POWER ON: the values of R184 with those of R78, R93, R94, R114, R135, R137, R147 and R179. -/
def Obligations.PowerOnValues : Prop :=
  ∀ (level : HoldLevel) (s : State), ∃ t : State, exec (.powerOn level) s = .next t ∧ t.pending = s.pending ∧
    t.phase = .loading ∧ t.clock = ⟨0, 0⟩ ∧ t.jobs = [] ∧ t.done = [] ∧ t.freeCount = 512 ∧ t.slots = [] ∧
    (∀ a, t.aisle a = ⟨none, none, none, 0, 0⟩) ∧ (∀ g, t.group g = ⟨0, none⟩) ∧
    t.disp.weights = ⟨10, 2000, 5000, 30000, true⟩ ∧ (∀ n : Fin 8, t.disp.filters.get n = ⟨false, 0, 0⟩) ∧
    t.disp.actedOn = level ∧ t.disp.held = decide (level = .asserted) ∧ t.disp.settling = false ∧
    t.settings = ⟨250, 3, 1000⟩ ∧
    t.host = ⟨[], [], [], 0, 0x3FF, 0, false⟩ ∧
    (t.car.link = .absent ∧ t.car.exchange = none ∧ t.car.work = .idle ∧ t.car.current = none ∧ t.car.queue = [] ∧
      t.car.orderNumber = 0 ∧ t.car.configured = false ∧ t.car.c0 = 0 ∧ t.car.c1 = 0 ∧ t.car.timeout = 180 ∧
      t.car.mode = .manual ∧ t.car.position = none ∧ t.car.fault = false ∧ t.car.orderInHand = 0 ∧
      t.car.notReady = false ∧ t.car.lastRefusal = none ∧ t.car.overdue = false ∧ t.car.jobTimer = none ∧
      t.car.sent = []) ∧
    ∀ c, (t.line c).link = .absent ∧ (t.line c).exchange = none ∧ (t.line c).stale = [] ∧ (t.line c).lastTrip = 0 ∧
      (t.line c).notReady = false ∧ (t.line c).reconcileDue = false ∧ (t.line c).strandedCheck = false ∧
      (t.line c).trip = none ∧ (t.line c).sent = [] ∧
      (t.line c).counters =
        ⟨⟨0, .wrap, false, 0, false⟩, ⟨0, .wrap, false, 0, false⟩, ⟨0, .wrap, false, 0, false⟩,
          ⟨0, .wrap, false, 0, false⟩, false, false⟩ ∧
      (t.line c).ctx =
        { protocolLevel := none, serial := none, name := none, h := none, v := none, a := none, fF := none, fR := none,
          forkDepth := none, dualCapable := none, classes := none, clamped := false, mode := .manual,
          aisle := .unknown, position := none, referenced := false, atHead := false, tripInHand := 0,
          legInProgress := 0, active := 0, latched := 0, detect := 0xFF, latch := 0xFF, conflict := false,
          nakFault := false, disabled := false, drained := false, work := .idle }

/-- RESET CONTROLLER (R185) is answered OK with an empty body, whatever the phase, and changes nothing else until the
reset takes effect; taking effect, every block stands at its power-on values, RESTART has gone out on each of the nine
lines, the request list is empty and the held flag is the HOLD input's level. That the reset is held as due between the
reply and its effect is the model's (assumption 26), as is that the row changes nothing when no reset is due (assumption
6), and that what was sent and replied before stays in the record of what was sent (assumption 4). -/
def Obligations.ResetIsAnsweredThenTakesEffect : Prop :=
  (∀ (n : Byte) (s : State), s.hasTurn ⟨0x93, n, []⟩ →
    exec (.resetController n []) s = .next (({ s.popRequest with resetDue := true }).answer ⟨0x93, n, []⟩ .ok [])) ∧
  (∀ s : State, s.resetDue = true → ∃ t : State, exec .resetTakesEffect s = .next t ∧
    t.pending = s.pending ∧ t.phase = .loading ∧ t.clock = ⟨0, 0⟩ ∧ t.resetDue = false ∧ t.jobs = [] ∧ t.done = [] ∧
    t.freeCount = 512 ∧ t.slots = [] ∧ (∀ a, t.aisle a = ⟨none, none, none, 0, 0⟩) ∧ (∀ g, t.group g = ⟨0, none⟩) ∧
    t.disp = Dispatcher.powerOn s.disp.holdInput ∧ t.settings = ⟨250, 3, 1000⟩ ∧
    t.host = ⟨[], [], s.host.replies, 0, 0x3FF, 0, false⟩ ∧
    t.car = { Car.powerOn with sent := s.car.sent ++ [CarTelegram.restart] } ∧
    ∀ c, t.line c = { Line.powerOn with sent := (s.line c).sent ++ [Telegram.restart] }) ∧
  (∀ s : State, s.resetDue = false → exec .resetTakesEffect s = .next s)

/-! ## The host link -/

/-- R168, R169, R186: whatever request code, number and body a frame carries, once its bytes have been sent with the
framing and the check value of R186 the port takes the very request, when it has room; otherwise the frame is discarded.
Stray bytes other than 02h before the frame are passed over. What bytes the row carries is assumption 19. -/
def Obligations.HostFrameIsTakenWhole : Prop :=
  ∀ (code number : Byte) (body stray : List Byte) (s : State), body.length ≤ 253 → (∀ b ∈ stray, b ≠ 2) →
    s.host.gathered = [] →
    (s.host.requests.length < 8 →
      exec (.hostFrameReceived (stray ++ frameOf (code :: number :: body))) s =
        .next { s with host := { s.host with requests := s.host.requests ++ [⟨code, number, body⟩] } }) ∧
    (8 ≤ s.host.requests.length →
      exec (.hostFrameReceived (stray ++ frameOf (code :: number :: body))) s = .next s)

/-- R168, R115: more than 20 ms of silence in an unfinished frame or telegram discards the bytes gathered so far, and
changes nothing else. -/
def Obligations.GapsDiscardGatheredBytes : Prop :=
  ∀ s : State,
    exec .hostFrameGapTimeout s = .next { s with host := { s.host with gathered := [] } } ∧
    exec (.telegramGapTimeout .car) s = .next { s with car := { s.car with gathered := [] } } ∧
    ∀ c, exec (.telegramGapTimeout (.crane c)) s = .next (s.setLine c { s.line c with gathered := [] })

/-- R170: a request whose code names no request is answered UNKNOWN_REQUEST with an empty body, and nothing else
changes. -/
def Obligations.UnknownRequestIsAnswered : Prop :=
  ∀ (code n : Byte) (b : List Byte) (s : State), requestRow code = none → s.hasTurn ⟨code, n, b⟩ →
    exec (.unknownRequestCode code n b) s = .next (s.popRequest.answer ⟨code, n, b⟩ .unknownRequest [])

/-- R169, for every request command: behind another request the frame joins the tail of the list while it holds fewer
than 8, and is discarded without reply when it holds 8 (assumption 3 says what a request command stands for). -/
def Obligations.RequestBehindAnotherWaits : Prop :=
  ∀ (i : Instr) (r q : Request) (rest : List Request) (s : State), i.request = some r →
    s.host.requests = q :: rest → q ≠ r →
    (rest.length < 7 → exec i s = .next { s with host := { s.host with requests := q :: rest ++ [r] } }) ∧
    (7 ≤ rest.length → exec i s = .next s)

/-- R170, step 3, for every request command whose code names a request: a body of the wrong length is answered
BAD_FIELD with an empty body, and nothing else changes. -/
def Obligations.WrongLengthIsRefused : Prop :=
  ∀ (i : Instr) (r : Request) (row : RequestRow) (s : State), i.request = some r → requestRow r.code = some row →
    lengthAgrees r.code r.body = false → s.hasTurn r → (∀ c n b, i ≠ .unknownRequestCode c n b) →
    exec i s = .next (s.popRequest.answer r .badField [])

/-- R171, for every request command: a request of the right length that is not admitted in the present phase is answered
WRONG_PHASE, and nothing else changes. -/
def Obligations.WrongPhaseIsRefused : Prop :=
  ∀ (i : Instr) (r : Request) (s : State), i.request = some r → lengthAgrees r.code r.body = true →
    admitted r.code s.phase = false → s.hasTurn r → (∀ c n b, i ≠ .unknownRequestCode c n b) →
    exec i s = .next (s.popRequest.answer r .wrongPhase [])

/-! ## Jobs -/

/-- R15, R16, R17, R41: a RETRIEVE of an OCCUPIED slot that passes every check of R15, posted while no job waits
PENDING, takes the lowest FREE record: the record is filled from the descriptor, OUT is placed on its slot, and a
grouped one becomes a member of its group. On a FRONT slot it enters READY and the Dispatcher is told; POST JOB answers
with the index, READY, no reason and no relocation, and POST BATCH with this one entry does the same and answers with
the index and READY. On a REAR slot whose FRONT slot is OCCUPIED and unreserved (R4, R41, R42), when store choice finds
a target for the pallet in front, a relocation is made in the next FREE record: it is READY with the dependent's
attribute and priority, OUT is placed on the FRONT slot and IN on the target, the Dispatcher is told, and the two
records are linked; the RETRIEVE waits PENDING with PREREQUISITE, and the reply gives the relocation's tag. The bytes
of the body are R187's and R190's; those of an absent relocation, and that the OK reply of POST BATCH gives the entries
alone, are assumption 24. -/
def Obligations.PostedRetrieveBecomesReady : Prop :=
  ∀ (n : Byte) (b : List Byte) (d : Descriptor) (s u : State), s.Settled → s.NothingPending → b.length = 14 →
    d = readDescriptor b 0 → s.checkPost d = none → d.isRetrieve = true →
    (s.slot d.address.aisle d.address.pos).condition = .occupied →
    u = ((s.popRequest.takeRecord s.lowestFree d.readyRetrieve).putSlot d.address.aisle d.address.pos
      { s.slot d.address.aisle d.address.pos with reservation := some ⟨.outOf, s.lowestFree⟩ }).joinPosted d →
    (d.address.pos.depth = .front →
      (s.hasTurn ⟨0x10, n, b⟩ →
        Completes (.postJob n b) s
          (u.tellDispatcher.answer ⟨0x10, n, b⟩ .ok (put2 s.lowestFree ++ [2, 0, 0, 0, 0, 0, 0, 0]))) ∧
      (s.hasTurn ⟨0x11, n, 1 :: b⟩ →
        Completes (.postBatch n (1 :: b)) s
          (u.tellDispatcher.answer ⟨0x11, n, 1 :: b⟩ .ok (put2 s.lowestFree ++ [2])))) ∧
    (∀ (front target : SlotPos) (k : Nat), d.address.pos.depth = .rear → front = { d.address.pos with depth := .front } →
      (s.slot d.address.aisle front).condition = .occupied → (s.slot d.address.aisle front).reservation = none →
      (s.slot d.address.aisle front).pallet = some k → rising s.jobs = true →
      u.chooseSlot d.address.aisle k (front.bay, front.level) (some d.address.pos) = some target →
      s.hasTurn ⟨0x10, n, b⟩ →
      Completes (.postJob n b) s
        ((((((u.takeRecord u.lowestFree (d.relocation s.lowestFree u.lowestFree front target k)).putSlot
          d.address.aisle front { u.slot d.address.aisle front with reservation := some ⟨.outOf, u.lowestFree⟩ }).putSlot
          d.address.aisle target { u.slot d.address.aisle target with reservation := some ⟨.into, u.lowestFree⟩ }).setJob
          s.lowestFree { d.readyRetrieve with
            state := .pending
            reason := some .prerequisite
            link := some u.lowestFree }).tellDispatcher).answer ⟨0x10, n, b⟩ .ok
          (put2 s.lowestFree ++ [1, 1, 2, 1] ++ put4 (0x80000000 + u.lowestFree))))

/-- R18, R19, R70: on a READY job that is no RELOCATE, AMEND JOB naming priority or attribute (and not staged) writes the
named fields, empties the excluded cranes, tells the Dispatcher, and answers with the record as it then stands. That the
body is the record's fields alone, with one presence byte for group and rank, is assumption 24, and that bits 3 to 7 of
the field set are not read assumption 20. -/
def Obligations.AmendWritesTheNamedFields : Prop :=
  ∀ (n : Byte) (b : List Byte) (i : Nat) (j k : Job) (s : State), s.Settled → b.length = 9 →
    s.byTag (longAt b 0) = some (i, j) → s.job i = some j → j.kind ≠ .relocate → j.state = .ready →
    1 ≤ byteAt b 4 % 4 → byteAt b 4 / 4 % 2 = 0 → (byteAt b 4 % 2 = 1 → byteAt b 5 ≤ 7) → s.hasTurn ⟨0x12, n, b⟩ →
    k = { j with
      priority := if byteAt b 4 % 2 = 1 then byteAt b 5 else j.priority
      attr := if byteAt b 4 / 2 % 2 = 1 then BitVec.ofNat 16 (wordAt b 6) else j.attr
      excluded := 0 } →
    Completes (.amendJob n b) s ((s.popRequest.setJob i k).tellDispatcher.answer ⟨0x12, n, b⟩ .ok k.put)

/-- R20, R38, R39, R37: an EXPLICIT STORE that waits NOT_STAGED, in a single-deep aisle and not on a BLOCKED slot, enters
READY when it is staged; the Dispatcher is told. A CHOSEN one, when no other job waits PENDING, is given the slot that
store choice finds, places its IN there and enters READY; when store choice finds none it waits PENDING with NO_ROOM, and
NO_ROOM is raised. -/
def Obligations.StagedStoreBecomesReady : Prop :=
  ∀ (n : Byte) (b : List Byte) (i : Nat) (j : Job) (s : State), s.Settled → b.length = 4 →
    s.byTag (longAt b 0) = some (i, j) → s.job i = some j → j.kind = .store →
    j.state = .pending → j.reason = some .notStaged → j.staged = some false → j.withdrawRequested = false →
    s.hasTurn ⟨0x13, n, b⟩ →
    (∀ p : SlotPos, j.choice = some .explicit → j.slot = some p → p.depth = .front → s.doubleDeep j.aisle = false →
      (s.slot j.aisle p).condition ≠ .blocked →
      Completes (.stage n b) s
        ((s.popRequest.setJob i { j with
          staged := some true
          state := .ready
          reason := none
          assignment := none }).tellDispatcher.answer ⟨0x13, n, b⟩ .ok [2, 0, 0])) ∧
    (j.choice = some .chosen → (∀ e ∈ s.jobs, e.2.state = .pending → e.1 = i) → rising s.jobs = true →
      (∀ p, s.chooseSlot j.aisle j.loadClass (0, 0) none = some p →
        Completes (.stage n b) s
          (((s.popRequest.putSlot j.aisle p { s.slot j.aisle p with reservation := some ⟨.into, i⟩ }).setJob i { j with
            staged := some true
            slot := some p
            state := .ready
            reason := none
            assignment := none }).tellDispatcher.answer ⟨0x13, n, b⟩ .ok [2, 0, 0])) ∧
      (s.chooseSlot j.aisle j.loadClass (0, 0) none = none →
        Completes (.stage n b) s
          (((s.popRequest.setJob i { j with
            staged := some true
            state := .pending
            reason := some .noRoom
            assignment := none }).raise .noRoom).answer ⟨0x13, n, b⟩ .ok [1, 1, 5])))

/-- R21, R49, R9: withdrawing a READY RETRIEVE without group and link, while no job waits PENDING, puts it into DONE
with outcome WITHDRAWN at the tail of the DONE list, raises JOB_DONE and releases its reservation; its slot keeps its
condition. Withdrawing a RETRIEVE that waits PENDING with PREREQUISITE, alone in PENDING, does the same, and its READY
relocation becomes FREE directly (R12): both its reservations are released, the FREE count rises by one, it does not enter
DONE, and the reply gives its tag. The body is laid out by assumption 24. -/
def Obligations.WithdrawnReadyJobIsDone : Prop :=
  ∀ (n : Byte) (b : List Byte) (i : Nat) (j : Job) (p : SlotPos) (s u : State), s.Settled →
    b.length = 4 → s.byTag (longAt b 0) = some (i, j) → s.job i = some j → j.kind = .retrieve →
    j.group = none → j.slot = some p → j.target = none → j.choice = none →
    (s.slot j.aisle p).reservation = some ⟨.outOf, i⟩ → s.hasTurn ⟨0x14, n, b⟩ →
    u = ({ ((s.popRequest.putSlot j.aisle p { s.slot j.aisle p with reservation := none }).setJob i
      { j with state := .done, reason := none, assignment := none, link := none, outcome := some .withdrawn }) with
      done := s.done ++ [i] }).raise .jobDone →
    (s.NothingPending → j.state = .ready → j.link = none →
      Completes (.withdrawJob n b) s (u.answer ⟨0x14, n, b⟩ .ok [6, 1, 2, 0, 0, 0, 0, 0])) ∧
    (∀ (l : Nat) (k : Job) (q r : SlotPos), rising s.jobs = true → (∀ e ∈ s.jobs, e.2.state = .pending → e.1 = i) →
      j.state = .pending → j.reason = some .prerequisite → j.link = some l → s.job l = some k → k.kind = .relocate →
      k.state = .ready → k.choice = none → k.slot = some q → k.target = some r →
      (s.slot k.aisle q).reservation = some ⟨.outOf, l⟩ → (s.slot k.aisle r).reservation = some ⟨.into, l⟩ →
      Completes (.withdrawJob n b) s
        (({ ((u.putSlot k.aisle q { s.slot k.aisle q with reservation := none }).putSlot k.aisle r
            { s.slot k.aisle r with reservation := none }) with
          jobs := removeKey l u.jobs
          freeCount := s.freeCount + 1 }).answer ⟨0x14, n, b⟩ .ok ([6, 1, 2, 1] ++ put4 k.tag)))

/-- R22, R160, R119: withdrawing an ACTIVE job sets its withdraw requested and cancel wanted on its leg, and with the
link UP, no exchange open and no stale cancel waiting its CANCEL is sent as an exchange and cancel sent is set. The
body, the state alone, is laid out by assumption 24. -/
def Obligations.WithdrawnActiveJobIsCancelled : Prop :=
  ∀ (n : Byte) (b : List Byte) (i : Nat) (j : Job) (x : Assignment) (t : Trip) (s : State), s.Settled → b.length = 4 →
    s.byTag (longAt b 0) = some (i, j) → s.job i = some j → j.kind ≠ .relocate → j.state = .active →
    j.withdrawRequested = false → j.assignment = some x → (s.line x.crane).link = .up →
    (s.line x.crane).exchange = none → (s.line x.crane).stale = [] → (s.line x.crane).trip = some t →
    t.accepted = true → t.legs = [⟨1, i, false, false, false⟩] → s.hasTurn ⟨0x14, n, b⟩ →
    Completes (.withdrawJob n b) s
      (((s.popRequest.setJob i { j with withdrawRequested := true }).setLine x.crane
        { s.line x.crane with
          trip := some { t with legs := [⟨1, i, false, true, true⟩] }
          exchange := some ⟨.cancel t.number 1, .cancel t.number 1, 0, s.settings.tack⟩
          sent := (s.line x.crane).sent ++ [Telegram.cancel t.number 1] }).answer ⟨0x14, n, b⟩ .ok [4])

/-- R26, R11: retiring a DONE record while no job waits PENDING takes it out of the DONE list and the table, and the
FREE count rises by one. -/
def Obligations.RetiredRecordIsFree : Prop :=
  ∀ (n : Byte) (b : List Byte) (i : Nat) (j : Job) (s : State), s.Settled → s.NothingPending → b.length = 4 →
    s.byTag (longAt b 0) = some (i, j) → j.state = .done → s.hasTurn ⟨0x17, n, b⟩ →
    Completes (.retireJob n b) s
      (({ s.popRequest with
        jobs := removeKey i s.jobs
        done := s.done.filter (fun k => k != i)
        freeCount := s.freeCount + 1 }).answer ⟨0x17, n, b⟩ .ok [])

/-- R27 for a STRANDED STORE without group: NOT_MOVED returns it to READY with its reservation kept and tells the
Dispatcher; COMPLETED, while no job waits PENDING, makes its slot OCCUPIED with its class, removes its IN and puts it
into DONE with outcome COMPLETED. The bodies are laid out by assumption 24. -/
def Obligations.VerdictSettlesStrandedStore : Prop :=
  ∀ (n : Byte) (b : List Byte) (i : Nat) (j : Job) (p : SlotPos) (s : State), s.Settled → s.NothingPending →
    b.length = 5 → s.byTag (longAt b 0) = some (i, j) → s.job i = some j → j.kind = .store → j.state = .stranded →
    j.withdrawRequested = false → j.group = none → j.link = none → j.slot = some p →
    (s.slot j.aisle p).reservation = some ⟨.into, i⟩ → s.hasTurn ⟨0x18, n, b⟩ →
    (byteAt b 4 = 2 →
      Completes (.resolveJob n b) s
        ((s.popRequest.setJob i { j with state := .ready, reason := none, assignment := none }).tellDispatcher.answer
          ⟨0x18, n, b⟩ .ok (put1 2 ++ putOption 1 (fun o => put1 (outcomeCode o)) j.outcome))) ∧
    (byteAt b 4 = 1 →
      Completes (.resolveJob n b) s
        ((({ ((s.popRequest.putSlot j.aisle p
            { s.slot j.aisle p with condition := .occupied, pallet := some j.loadClass, reservation := none }).setJob i
          { j with state := .done, reason := none, assignment := none, link := none, outcome := some .completed }) with
          done := s.done ++ [i] }).raise .jobDone).answer ⟨0x18, n, b⟩ .ok [6, 1, 1]))

/-! ## The Slot Map -/

/-- R24, R25, R53, R91, R96, R113, R146: QUERY JOB, NEXT DONE, QUERY SLOT, QUERY GROUP, QUERY AISLE, QUERY CAR and
QUERY CRANE answer OK with the record they name, laid out by R190, and change nothing; without such a job record the
answers are UNKNOWN_TAG and NONE. Where R190 leaves a width, a presence byte or an absent field open, the layout is
assumption 24. -/
def Obligations.RecordQueriesChangeNothing : Prop :=
  ∀ (n : Byte) (b : List Byte) (s : State),
    (b.length = 4 → s.hasTurn ⟨0x15, n, b⟩ →
      (∀ i j, s.byTag (longAt b 0) = some (i, j) → s.job i = some j →
        exec (.queryJob n b) s =
          .next (s.popRequest.answer ⟨0x15, n, b⟩ .ok (putJob i j ++ putFlag (s.jobHeld j)))) ∧
      (s.byTag (longAt b 0) = none →
        exec (.queryJob n b) s = .next (s.popRequest.answer ⟨0x15, n, b⟩ .unknownTag []))) ∧
    (b.length = 0 → s.hasTurn ⟨0x16, n, b⟩ →
      (∀ i rest j, s.done = i :: rest → s.job i = some j →
        exec (.nextDone n b) s =
          .next (s.popRequest.answer ⟨0x16, n, b⟩ .ok (putJob i j ++ putFlag (s.jobHeld j)))) ∧
      (s.done = [] → exec (.nextDone n b) s = .next (s.popRequest.answer ⟨0x16, n, b⟩ .none []))) ∧
    (∀ x : SlotAddress, b.length = 3 → x = readSlotAddress (tripleAt b 0) → s.hasSlot x.aisle x.pos = true →
      s.hasTurn ⟨0x23, n, b⟩ →
      exec (.querySlot n b) s =
        .next (s.popRequest.answer ⟨0x23, n, b⟩ .ok (s.putSlotRecord x.aisle x.pos))) ∧
    (∀ g : Fin 16, b.length = 1 → byteAt b 0 = g.val + 1 → s.hasTurn ⟨0x43, n, b⟩ →
      exec (.queryGroup n b) s = .next (s.popRequest.answer ⟨0x43, n, b⟩ .ok (s.putQueriedGroup g))) ∧
    (∀ a : Fin 16, b.length = 1 → byteAt b 0 = a.val → s.hasTurn ⟨0x51, n, b⟩ →
      exec (.queryAisle n b) s = .next (s.popRequest.answer ⟨0x51, n, b⟩ .ok (s.aisle a).putQueried)) ∧
    (b.length = 0 → s.hasTurn ⟨0x53, n, b⟩ →
      exec (.queryCar n b) s = .next (s.popRequest.answer ⟨0x53, n, b⟩ .ok s.car.put)) ∧
    (∀ c : Fin 8, b.length = 1 → byteAt b 0 = c.val → s.hasTurn ⟨0x72, n, b⟩ →
      exec (.queryCrane n b) s = .next (s.popRequest.answer ⟨0x72, n, b⟩ .ok (s.putCrane c)))

/-- R31: in LOADING, SET AISLE with levels not 0 and every field in range configures the aisle afresh, enabled, unlocked
and with every slot free, when all aisles together stay within 65,536 slot records; beyond that it is refused with
GEOMETRY_TOO_LARGE. With levels 0 the aisle becomes not configured. -/
def Obligations.SetAisleBuildsTheAisle : Prop :=
  ∀ (n : Byte) (b : List Byte) (a : Fin 16) (s u : State), s.phase = .loading → b.length = 5 →
    byteAt b 0 = a.val → s.hasTurn ⟨0x20, n, b⟩ →
    (1 ≤ byteAt b 1 → byteAt b 1 ≤ 32 → 1 ≤ byteAt b 2 → byteAt b 2 ≤ 128 → 1 ≤ byteAt b 3 → byteAt b 3 ≤ 2 →
      byteAt b 4 ≤ 15 →
      (s.otherSlots a + 2 * byteAt b 1 * byteAt b 2 * byteAt b 3 ≤ 65536 →
        u = ({ s.popRequest with slots := s.slots.filter (fun e => e.1 / 16384 != a.val) }).setAisle a
          ⟨some ⟨byteAt b 1, byteAt b 2, byteAt b 3, byteAt b 4⟩, some true, none, 0,
            2 * byteAt b 1 * byteAt b 2 * byteAt b 3⟩ →
        exec (.setAisle n b) s =
          .next (u.answer ⟨0x20, n, b⟩ .ok (put2 (2 * byteAt b 1 * byteAt b 2 * byteAt b 3) ++ put3 u.totalSlots))) ∧
      (65536 < s.otherSlots a + 2 * byteAt b 1 * byteAt b 2 * byteAt b 3 →
        exec (.setAisle n b) s = .next (s.popRequest.answer ⟨0x20, n, b⟩ .geometryTooLarge []))) ∧
    (byteAt b 1 = 0 →
      u = ({ s.popRequest with slots := s.slots.filter (fun e => e.1 / 16384 != a.val) }).setAisle a
        ⟨none, none, none, 0, 0⟩ →
      exec (.setAisle n b) s = .next (u.answer ⟨0x20, n, b⟩ .ok (put2 0 ++ put3 u.totalSlots)))

/-- R50: in LOADING, LOAD SLOTS with one entry whose slot lies in the configured aisle and whose values are in range
writes the slot record and clears the unverified mark; an entry out of range is answered PARTIAL with none taken. That
the body of the OK reply is empty is assumption 24. -/
def Obligations.LoadSlotsWritesTheEntry : Prop :=
  ∀ (n : Byte) (b : List Byte) (a : Fin 16) (p : SlotPos) (s : State), s.phase = .loading → b.length = 8 →
    byteAt b 0 = a.val → byteAt b 1 = 1 → p = (readSlotAddress (tripleAt b 2)).pos →
    (s.aisle a).geometry.isSome = true → s.hasTurn ⟨0x21, n, b⟩ →
    (∀ v, readSlotValues b 5 = some v → s.hasSlot a p = true →
      exec (.loadSlots n b) s =
        .next ((s.popRequest.putSlot a p
          ⟨v.condition, v.slotClass, v.pallet, (s.slot a p).reservation, false⟩).answer ⟨0x21, n, b⟩ .ok [])) ∧
    (readSlotValues b 5 = none ∨ s.hasSlot a p = false →
      exec (.loadSlots n b) s = .next (s.popRequest.answer ⟨0x21, n, b⟩ .partly [0, 0x11]))

/-- R51, R52: outside LOADING and while no job waits PENDING, SET SLOT writes the record of a slot that holds no
reservation and stands in front of no reserved REAR slot, with the unverified mark clear, and answers with the record.
R43, R44: a FRONT slot held by the OUT of a RETRIEVE that waits SLOT_BLOCKED, alone in PENDING, may be set OCCUPIED; the
reservation stays, and in the same event the RETRIEVE is evaluated again and enters READY, of which the Dispatcher is
told. -/
def Obligations.SetSlotWritesTheRecord : Prop :=
  ∀ (n : Byte) (b : List Byte) (x : SlotAddress) (v : SlotValues) (s : State), s.Settled →
    s.phase ≠ .loading → b.length = 6 → x = readSlotAddress (tripleAt b 0) → readSlotValues b 3 = some v →
    s.hasSlot x.aisle x.pos = true → s.rearAtRest x.aisle x.pos = true → s.hasTurn ⟨0x22, n, b⟩ →
    (s.NothingPending → (s.slot x.aisle x.pos).reservation = none →
      Completes (.setSlot n b) s
        ((s.popRequest.putSlot x.aisle x.pos ⟨v.condition, v.slotClass, v.pallet, none, false⟩).answer ⟨0x22, n, b⟩ .ok
          (put1 (conditionCode v.condition) ++ put1 v.slotClass ++ putOption 1 put1 v.pallet ++
            [0, 0, 0, 0, 0, 0, 0, 0, 0]))) ∧
    (∀ (i : Nat) (j : Job), rising s.jobs = true → (∀ e ∈ s.jobs, e.2.state = .pending → e.1 = i) →
      x.pos.depth = .front → (s.slot x.aisle x.pos).reservation = some ⟨.outOf, i⟩ → s.job i = some j →
      j.kind = .retrieve → j.state = .pending → j.reason = some .slotBlocked → j.aisle = x.aisle →
      j.slot = some x.pos → j.withdrawRequested = false → v.condition = .occupied →
      Completes (.setSlot n b) s
        (((s.popRequest.putSlot x.aisle x.pos
            ⟨.occupied, v.slotClass, v.pallet, some ⟨.outOf, i⟩, false⟩).setJob i { j with
          state := .ready
          reason := none
          assignment := none }).tellDispatcher.answer ⟨0x22, n, b⟩ .ok
          ([1] ++ put1 v.slotClass ++ putOption 1 put1 v.pallet ++ [1] ++ put1 (resKindCode .outOf) ++ put2 i ++
            put4 j.tag ++ [0])))

/-- R40: store choice gives a slot of the aisle that meets the four conditions and whose access time is the least of all
such slots, and gives none only when no slot of the aisle meets them. -/
def Obligations.StoreChoiceIsTheNearestCandidate : Prop :=
  ∀ (s : State) (a : Fin 16) (c : Nat) (g : Geometry), (s.aisle a).geometry = some g →
    (∀ p, s.chooseSlot a c (0, 0) none = some p →
      p ∈ slotsInTieOrder g ∧ s.choiceCandidate a c p = true ∧
      ∀ q ∈ slotsInTieOrder g, s.choiceCandidate a c q = true →
        max (p.bay * s.choiceTiming.1) (p.level * s.choiceTiming.2) ≤
          max (q.bay * s.choiceTiming.1) (q.level * s.choiceTiming.2)) ∧
    (s.chooseSlot a c (0, 0) none = none → ∀ q ∈ slotsInTieOrder g, s.choiceCandidate a c q = false)

/-! ## Dispatch -/

/-- R59, R76: SET HOLD FILTER writes the three fields of one entry and tells the Dispatcher; SET WEIGHTS writes the five
weights, Wa and Wp brought to their bounds, and tells nobody. Each answers with what it wrote. -/
def Obligations.DispatchSettingsAreWritten : Prop :=
  ∀ (n : Byte) (b : List Byte) (s : State),
    (∀ (k : Fin 8) (e : Bool), b.length = 6 → byteAt b 0 = k.val → byteAt b 1 = e.toNat → s.hasTurn ⟨0x30, n, b⟩ →
      exec (.setHoldFilter n b) s =
        .next ((s.popRequest.setFilter k
          ⟨e, BitVec.ofNat 16 (wordAt b 2), BitVec.ofNat 16 (wordAt b 4)⟩).tellDispatcher.answer ⟨0x30, n, b⟩ .ok
          (put1 k.val ++ putFlag e ++ put2 (wordAt b 2) ++ put2 (wordAt b 4)))) ∧
    (∀ e : Bool, b.length = 9 → byteAt b 8 = e.toNat → s.hasTurn ⟨0x31, n, b⟩ →
      exec (.setWeights n b) s =
        .next (({ s.popRequest with disp := { s.disp with
          weights := ⟨min 255 (wordAt b 0), min 8191 (wordAt b 2), wordAt b 4, wordAt b 6, e⟩ } }).answer
          ⟨0x31, n, b⟩ .ok
          (putFlag (decide (255 < wordAt b 0) || decide (8191 < wordAt b 2)) ++ put2 (min 255 (wordAt b 0)) ++
            put2 (min 8191 (wordAt b 2)) ++ put2 (wordAt b 4) ++ put2 (wordAt b 6) ++ putFlag e)))

/-- R77: QUERY DISPATCH is admitted in every phase and answers OK with the five weights, the eight hold filter entries,
the held flag, the level of the HOLD input and the debounce state; it changes nothing. -/
def Obligations.QueryDispatchReportsAndChangesNothing : Prop :=
  ∀ (n : Byte) (s : State), s.hasTurn ⟨0x32, n, []⟩ →
    exec (.queryDispatch n []) s =
      .next (s.popRequest.answer ⟨0x32, n, []⟩ .ok
        (put2 s.disp.weights.wa ++ put2 s.disp.weights.wp ++ put2 s.disp.weights.wh ++ put2 s.disp.weights.u ++
          putFlag s.disp.weights.dual ++
          (List.finRange 8).flatMap (fun k => put1 k.val ++ putFlag (s.disp.filters.get k).enabled ++
            put2 (s.disp.filters.get k).argument.toNat ++ put2 (s.disp.filters.get k).mask.toNat) ++
          putFlag s.disp.held ++ put1 (levelCode s.disp.holdInput) ++ putFlag s.disp.settling))

/-- R66: the per-pallet time of a single is its trip time, that of a dual half of it rounded up, and either at most
999,999. -/
def Obligations.PerPalletTime : Prop :=
  ∀ t : Nat, singlePrice t = min 999999 t ∧
    (∃ h, (2 * h = t ∨ 2 * h = t + 1) ∧ dualPrice t = min 999999 h)

/-- R68, the tenth law: with the weights in their ranges and every priority at most 7, the score of every candidate lies
from −152,872 to 999,999. -/
def Obligations.ScoresLieWithinTheLimits : Prop :=
  ∀ (s : State) (x : Candidate), s.disp.weights.wp ≤ 8191 → s.disp.weights.wh ≤ 65535 →
    (∀ e ∈ s.jobs, e.2.priority ≤ 7) → x ∈ s.candidates → -152872 ≤ x.score ∧ x.score ≤ 999999

/-- R71, R72: the candidate a round takes is one of the round's, and no other comes before it, where a lower score comes
first, and at equal score the greater age, the lower lowest record index, a single before a dual, the lower crane, and
the lower higher record index, in this order. -/
def Obligations.RoundTakesTheBestCandidate : Prop :=
  (∀ (l : List Candidate) (x : Candidate), bestCandidate l = some x → x ∈ l ∧ ∀ y ∈ l, y.better x = false) ∧
  ∀ x y : Candidate, x.better y = true ↔ x.score < y.score ∨ x.score = y.score ∧ (y.age < x.age ∨ y.age = x.age ∧
    (x.low < y.low ∨ x.low = y.low ∧ (x.legs.length < y.legs.length ∨ x.legs.length = y.legs.length ∧
      (x.crane < y.crane ∨ x.crane = y.crane ∧ x.high < y.high))))

/-- R70, R71, R73, R75, R125: a pass that finds no candidate completes and changes nothing but that it is no longer due.
A pass that finds one candidate, a single job in the aisle where its crane stands and whose lock the crane holds, orders
that job: last score and assignment are written, the trip record is made with the next trip number, the crane is ORDERING,
with no exchange open its ORDER is sent, and the pass is no longer due. It is a premise that the state so left offers no
candidate, so that the pass ends there. That a pass is due for each trigger told is assumption 10. -/
def Obligations.PassServesItsCandidates : Prop :=
  (∀ s : State, s.Settled → 0 < s.disp.passesDue → s.candidates = [] →
    exec .dispatchPass s = .next { s with disp := { s.disp with passesDue := s.disp.passesDue - 1 } }) ∧
  ∀ (s u : State) (c : Fin 8) (a : Fin 16) (i n : Nat) (j : Job) (score : Int) (age : Nat), s.Settled →
    0 < s.disp.passesDue → s.candidates = [⟨c, a, [i], score, age, i, i⟩] → s.job i = some j → rising s.jobs = true →
    j.aisle = a → (s.line c).ctx.aisle = .inAisle a → s.holdsLock c a = true → s.nextTripNumber c = some n →
    (s.line c).link = .up → (s.line c).exchange = none →
    u = ({ s with disp := { s.disp with passesDue := s.disp.passesDue - 1 } }.setJob i
        { j with state := .ordered, assignment := some ⟨c, n, 1⟩, lastScore := some score }).setLine c
        { s.line c with
          trip := some ⟨n, [⟨1, i, false, false, false⟩], none, false, true⟩
          lastTrip := n
          ctx := { (s.line c).ctx with work := .ordering }
          exchange := some ⟨.order n, .order n none [⟨1, j.kind, j.aisle, j.slot, j.target⟩], 0, s.settings.tack⟩
          sent := (s.line c).sent ++ [Telegram.order n none [⟨1, j.kind, j.aisle, j.slot, j.target⟩]] } →
    u.candidates = [] →
    ∃ t : State, exec .dispatchPass s = .next t ∧ t.Settled ∧ t.bare = u.bare ∧ u.Grows t ∧ t.disp = u.disp

/-- R60, R61: in OPEN, a change of the HOLD input to the level not last acted on is acted on at once: the held flag
follows, HOLD is raised, a settling period starts, and a release tells the Dispatcher once. Any other change only moves the
input: no alert is raised and no pass told. When the settling period expires the input is compared with the level last
acted on: OPEN when they agree, and otherwise an edge that starts another period. But for a release, which may make a
crane eligible and so count (R148), these are the next states whole; an edge to ASSERTED tells no pass. -/
def Obligations.HoldInputIsDebounced : Prop :=
  ∀ (s : State) (level : HoldLevel), s.Settled →
    (s.disp.settling = false → level = .asserted → s.disp.actedOn = .released →
      exec (.holdInputChange level) s =
        .next (({ s with disp := { s.disp with
          holdInput := level
          held := true
          actedOn := level
          settling := true } }).raise .hold).takeConditions) ∧
    (s.disp.settling = false → level = .released → s.disp.actedOn = .asserted →
      ∀ u, u = (({ s with disp := { s.disp with
          holdInput := level
          held := false
          actedOn := level
          settling := true } }).raise .hold).tellDispatcher →
        Completes (.holdInputChange level) s u ∧
          ∀ t, exec (.holdInputChange level) s = .next t → t.disp = u.disp) ∧
    (s.disp.settling = true ∨ level = s.disp.actedOn →
      exec (.holdInputChange level) s = .next { s with disp := { s.disp with holdInput := level } }) ∧
    (s.disp.settling = true → s.disp.holdInput = s.disp.actedOn →
      exec .holdSettlingExpiry s = .next { s with disp := { s.disp with settling := false } }) ∧
    (s.disp.settling = true → s.disp.holdInput = .asserted → s.disp.actedOn = .released →
      exec .holdSettlingExpiry s =
        .next (({ s with disp := { s.disp with held := true, actedOn := .asserted } }).raise .hold).takeConditions) ∧
    (s.disp.settling = true → s.disp.holdInput = .released → s.disp.actedOn = .asserted →
      ∀ u, u = (({ s with disp := { s.disp with held := false, actedOn := .released } }).raise .hold).tellDispatcher →
        Completes .holdSettlingExpiry s u ∧ ∀ t, exec .holdSettlingExpiry s = .next t → t.disp = u.disp)

/-! ## Sequence groups -/

/-- R88, R89: OPEN GROUP opens a CLOSED group with the first rank as next rank, the window brought to 1 to 32, nothing
done ahead and no member. CLOSE GROUP closes an OPEN group without members, answers OK for a CLOSED one, and refuses
one with members with NOT_ALLOWED. The body of OPEN GROUP is laid out by assumption 24. -/
def Obligations.GroupsOpenAndClose : Prop :=
  ∀ (n : Byte) (b : List Byte) (g : Fin 16) (s : State), byteAt b 0 = g.val + 1 →
    (b.length = 6 → 1 ≤ wordAt b 1 → (s.group g).opened = none → s.hasTurn ⟨0x40, n, b⟩ →
      exec (.openGroup n b) s =
        .next ((s.popRequest.setGroup g
          ⟨0, some ⟨wordAt b 1, max 1 (min 32 (byteAt b 3)), [], wordAt b 4, 0, false⟩⟩).answer ⟨0x40, n, b⟩ .ok
          (putFlag (decide (byteAt b 3 = 0 ∨ 32 < byteAt b 3)) ++ [1, 1] ++ put2 (wordAt b 1) ++ [1] ++
            put1 (max 1 (min 32 (byteAt b 3))) ++ [1, 0, 0, 0, 0, 0, 0, 1] ++ put2 (wordAt b 4) ++ [1, 0, 0, 1, 0]))) ∧
    (b.length = 1 → s.hasTurn ⟨0x41, n, b⟩ →
      ((s.group g).opened ≠ none → (s.group g).members = 0 →
        exec (.closeGroup n b) s = .next ((s.popRequest.setGroup g ⟨0, none⟩).answer ⟨0x41, n, b⟩ .ok [])) ∧
      ((s.group g).opened = none →
        exec (.closeGroup n b) s = .next (s.popRequest.answer ⟨0x41, n, b⟩ .ok [])) ∧
      ((s.group g).opened ≠ none → (s.group g).members ≠ 0 →
        exec (.closeGroup n b) s = .next (s.popRequest.answer ⟨0x41, n, b⟩ .notAllowed [])))

/-- R90, R82, R84: SKIP RANK of a rank beyond the next rank that no live member holds and that is not done ahead joins
the done-ahead set; of the next rank, with nothing done ahead, it advances the group by one, sets its timer to 0,
clears its flag and tells the Dispatcher; of the next rank 65535 it closes the group. The bytes of the body are R187's
and R190's; those of the fields that a CLOSED group has absent are assumption 24. -/
def Obligations.SkippedRankIsFinished : Prop :=
  ∀ (n : Byte) (b : List Byte) (g : Fin 16) (o : OpenGroup) (s u : State), byteAt b 0 = g.val + 1 → b.length = 3 →
    (s.group g).opened = some o → s.rankHeld g (wordAt b 1) = false → wordAt b 1 ∉ o.ahead →
    s.hasTurn ⟨0x42, n, b⟩ →
    (o.next < wordAt b 1 → wordAt b 1 ≤ o.next + 31 →
      u = s.popRequest.setGroup g
        { s.group g with opened := some { o with ahead := insertRank (wordAt b 1) o.ahead } } →
      exec (.skipRank n b) s = .next (u.answer ⟨0x42, n, b⟩ .ok (u.group g).putSkipped)) ∧
    (wordAt b 1 = o.next → o.next < 65535 → o.ahead = [] →
      u = (s.popRequest.setGroup g
        { s.group g with opened := some { o with
          next := o.next + 1
          stallTimer := 0
          stallReported := false } }).tellDispatcher →
      exec (.skipRank n b) s =
        .next (u.answer ⟨0x42, n, b⟩ .ok (put1 1 ++ put2 (o.next + 1) ++ [1, 0, 0, 0, 0]))) ∧
    (wordAt b 1 = o.next → o.next = 65535 → o.ahead = [] →
      exec (.skipRank n b) s =
        .next ((s.popRequest.setGroup g ⟨0, none⟩).answer ⟨0x42, n, b⟩ .ok [0, 0, 0, 0, 0, 0, 0, 0]))

/-- R83: an advance of a group, taken whole, whose done-ahead set lies in rising order within the 31 ranks above the next
rank (R79): the next rank becomes the first rank beyond the old one that is not done ahead, the ranks passed leave the
set, the stall timer is 0, the stall reported flag is clear, the Dispatcher is told, and nothing else changes. Every rank
left in the set lies above the new next rank and not above it plus 31. (Beyond rank 65535 there is no rank: R84.) -/
def Obligations.AdvancePassesFinishedRanks : Prop :=
  ∀ (s : State) (g : Fin 16) (o : OpenGroup) (n : Nat), o.ahead.Pairwise (· < ·) →
    (∀ r ∈ o.ahead, o.next < r ∧ r ≤ o.next + 31) → o.next < n → n ∉ o.ahead →
    (∀ r, o.next < r → r < n → r ∈ o.ahead) → n ≤ 65535 →
    s.advanceGroup g o =
      (s.setGroup g { s.group g with
        opened := some { o with
          next := n
          ahead := o.ahead.filter (fun r => n < r)
          stallTimer := 0
          stallReported := false } }).tellDispatcher ∧
    ∀ r ∈ o.ahead.filter (fun r => n < r), n < r ∧ r ≤ n + 31

/-- R87: a group whose timer stands at its limit and whose stall is unreported is reported: the flag is set and
SEQ_STALL raised. A group that is reported, has limit 0, stands below its limit or is CLOSED is not. The row as a
command of its own is assumption 11, a timer beyond its limit assumption 22. -/
def Obligations.StallIsReportedOnce : Prop :=
  ∀ (g : Fin 16) (s : State), s.Settled →
    (∀ o, (s.group g).opened = some o → o.stallLimit ≠ 0 → o.stallReported = false → o.stallLimit ≤ o.stallTimer →
      Completes (.stallLimitReached g) s
        ((s.setGroup g { s.group g with opened := some { o with stallReported := true } }).raise .seqStall)) ∧
    ((∀ o, (s.group g).opened = some o →
        o.stallLimit = 0 ∨ o.stallReported = true ∨ o.stallTimer < o.stallLimit) →
      exec (.stallLimitReached g) s = .next s)

/-! ## Aisles and the car -/

/-- R95: SET AISLE ENABLE writes the enabled field of a configured aisle, tells the Dispatcher exactly when it changes
from NO to YES, and answers with the aisle record; an aisle that is not configured refuses it with NO_SUCH_AISLE. -/
def Obligations.AisleIsEnabled : Prop :=
  ∀ (n : Byte) (b : List Byte) (a : Fin 16) (e : Bool) (s : State), b.length = 2 → byteAt b 0 = a.val →
    byteAt b 1 = e.toNat → s.hasTurn ⟨0x50, n, b⟩ →
    ((s.aisle a).geometry ≠ none → e = true ∧ (s.aisle a).enabled = some false →
      exec (.setAisleEnable n b) s =
        .next ((s.popRequest.setAisle a { s.aisle a with enabled := some e }).tellDispatcher.answer ⟨0x50, n, b⟩ .ok
          ([1, 1] ++ putFlag e ++ put1 (lockCode (s.aisle a).lock) ++ put2 (s.aisle a).occupied ++
            put2 (s.aisle a).free))) ∧
    ((s.aisle a).geometry ≠ none → ¬ (e = true ∧ (s.aisle a).enabled = some false) →
      exec (.setAisleEnable n b) s =
        .next ((s.popRequest.setAisle a { s.aisle a with enabled := some e }).answer ⟨0x50, n, b⟩ .ok
          ([1, 1] ++ putFlag e ++ put1 (lockCode (s.aisle a).lock) ++ put2 (s.aisle a).occupied ++
            put2 (s.aisle a).free))) ∧
    ((s.aisle a).geometry = none →
      exec (.setAisleEnable n b) s = .next (s.popRequest.answer ⟨0x50, n, b⟩ .noSuchAisle []))

/-- R112, R111: with no transfer running and the queue empty, SET CAR configures the car with its three values brought
to their bounds. RESTART CAR LINE sends RESTART, makes the link ABSENT, ends the open exchange and clears the
not-ready mark; the current request, work state, order number, job timer, overdue flag and queue are kept. That the
silence timer starts afresh is assumption 17. -/
def Obligations.CarIsConfiguredAndRestarted : Prop :=
  ∀ (n : Byte) (b : List Byte) (s : State), s.Settled →
    (b.length = 6 → s.car.jobTimer = none → s.car.queue = [] → s.hasTurn ⟨0x52, n, b⟩ →
      Completes (.setCar n b) s
        (({ s.popRequest with car := { s.car with
          configured := true
          c0 := min 60000 (wordAt b 0)
          c1 := min 30000 (wordAt b 2)
          timeout := max 10 (min 600 (wordAt b 4)) } }).answer ⟨0x52, n, b⟩ .ok
          (putFlag (decide (60000 < wordAt b 0 ∨ 30000 < wordAt b 2 ∨ wordAt b 4 < 10 ∨ 600 < wordAt b 4)) ++
            put2 (min 60000 (wordAt b 0)) ++ put2 (min 30000 (wordAt b 2)) ++
            put2 (max 10 (min 600 (wordAt b 4)))))) ∧
    (b.length = 0 → s.hasTurn ⟨0x54, n, b⟩ →
      Completes (.restartCarLine n b) s
        (({ s.popRequest with car := { s.car with
          link := .absent
          exchange := none
          orderWaiting := false
          notReady := false
          silence := s.settings.pollInterval
          sent := s.car.sent ++ [CarTelegram.restart] } }).answer ⟨0x54, n, b⟩ .ok []))

/-- R106, R107: with the link UP and the car ORDERING, a CAR ACK of the current order closes its CAR ORDER exchange,
makes the car FETCHING and starts the car job timer at 0. A CAR NAK whose crane holds the trip closes the exchange, stores
the refusal, sets the not-ready mark, makes the request wait at the head of the queue again and the car IDLE; MANUAL makes
the stored mode MANUAL, and FAULT sets the stored fault flag and raises CAR where it was clear. -/
def Obligations.CarOrderIsAnswered : Prop :=
  ∀ (order reason : Byte) (r : CurrentRequest) (x : CarExchange) (s : State), s.Settled → s.car.link = .up →
    s.car.current = some r → r.order = order.toNat → s.car.work = .ordering → s.car.exchange = some x →
    x.isOrder = true → s.car.orderWaiting = false →
    Completes (.carAck order) s
      { s with car := { s.car with
          exchange := none
          silence := s.settings.pollInterval
          work := .fetching
          jobTimer := some 0 } } ∧
    (∀ (t : Trip) (y : Transfer) (k : CarRefusal), readCarRefusal reason.toNat = some k →
      (s.line r.crane).trip = some t → t.number = r.trip → t.transfer = some y →
      (k = CarRefusal.fault → s.car.fault = true) →
      Completes (.carNak order reason) s
        ({ s with car := { s.car with
            exchange := none
            silence := s.settings.pollInterval
            lastRefusal := some k
            notReady := true
            mode := if k = CarRefusal.manual then CarMode.manual else s.car.mode
            current := none
            work := .idle
            queue := ⟨r.crane, r.fromAisle, r.toAisle⟩ :: s.car.queue } }.setLine r.crane
          { s.line r.crane with trip := some { t with transfer := some { y with stage := .queued } } })) ∧
    (∀ (t : Trip) (y : Transfer), readCarRefusal reason.toNat = some .fault →
      (s.line r.crane).trip = some t → t.number = r.trip → t.transfer = some y → s.car.fault = false →
      Completes (.carNak order reason) s
        (({ s with car := { s.car with
            exchange := none
            silence := s.settings.pollInterval
            lastRefusal := some .fault
            notReady := true
            fault := true
            current := none
            work := .idle
            queue := ⟨r.crane, r.fromAisle, r.toAisle⟩ :: s.car.queue } }.setLine r.crane
          { s.line r.crane with trip := some { t with transfer := some { y with stage := .queued } } }).raise .car))

/-- R108, R98: with no exchange open, DOCKED_FROM taken in FETCHING makes the car BOARDING; BOARDED taken in BOARDING
makes it CARRYING, releases the lock of the from aisle, which the crane holds, and tells the Dispatcher, and the crane is
ON CAR; ALIGHTED taken in ALIGHTING, for a crane without a trip that holds the to aisle's lock and no other, with an empty
queue, puts the crane at (0, 0) of the to aisle, stops the timer, clears the overdue flag and leaves the car IDLE. -/
def Obligations.CarPhasesAreApplied : Prop :=
  ∀ (order : Byte) (r : CurrentRequest) (s : State), s.Settled → s.car.link = .up → s.car.current = some r →
    r.order = order.toNat → s.car.exchange = none → s.car.orderWaiting = false →
    (s.car.work = .fetching →
      Completes (.phase order 1) s
        { s with car := { s.car with silence := s.settings.pollInterval, work := .boarding } }) ∧
    (s.car.work = .boarding → s.holdsLock r.crane r.fromAisle = true →
      Completes (.phase order 2) s
        (({ s with car := { s.car with silence := s.settings.pollInterval, work := .carrying } }.setAisle r.fromAisle
          { s.aisle r.fromAisle with lock := none }).tellDispatcher.setLine r.crane
          { s.line r.crane with ctx := { (s.line r.crane).ctx with aisle := .onCar } })) ∧
    (s.car.work = .alighting → (s.line r.crane).trip = none → s.holdsLock r.crane r.toAisle = true →
      (∀ a, a ≠ r.toAisle → s.holdsLock r.crane a = false) → s.car.queue = [] →
      Completes (.phase order 4) s
        ({ s with car := { s.car with
            silence := s.settings.pollInterval
            work := .idle
            position := some r.toAisle
            jobTimer := none
            overdue := false
            current := none } }.setLine r.crane
          { s.line r.crane with ctx := { (s.line r.crane).ctx with
              aisle := .inAisle r.toAisle, position := some (0, 0), conflict := false } }))

/-- R103, R102: a CAR STATUS with no exchange open, no current request and an empty queue is taken in every link state:
the link is UP, the four fields are stored, the not-ready mark is lifted by order in hand 0 in AUTO without fault, and a
fault flag that comes to be set raises CAR. R105: when it leaves an IDLE configured car in AUTO, without fault and not
marked not ready, the head of the queue is served: it becomes the current request with the number of its crane's trip
and the next order number, the transfer's stage becomes SERVING, the work state ORDERING, and the CAR ORDER is sent as an
exchange. The next order number counts 1 to 255 and round, passing over the order in hand. R110: when it brings back a car
whose current request it does not name, the CAR ORDER of that request is sent again. R106: when it names the current
request with no phase, it answers for it: the work state becomes FETCHING and the car job timer starts (with no exchange
open, by assumption 21). -/
def Obligations.CarStatusIsStored : Prop :=
  (∀ n inHand : Nat, (1 ≤ nextOrderNumber n inHand ∧ nextOrderNumber n inHand ≤ 255) ∧
    nextOrderNumber n inHand ≠ inHand ∧ (n % 255 + 1 ≠ inHand → nextOrderNumber n inHand = n % 255 + 1)) ∧
  ∀ (mode position fault order lastPhase : Byte) (r : CarReport) (s : State) (k : Car), s.Settled →
    readCarStatus mode position fault order lastPhase = some r → s.car.exchange = none →
    k = { s.car with
      link := .up
      silence := s.settings.pollInterval
      mode := r.mode
      position := some r.position
      fault := r.fault
      orderInHand := r.order
      notReady := s.car.notReady && !(r.order == 0 && r.mode == .auto && !r.fault) } →
    (s.car.current = none → s.car.queue = [] →
      (r.fault = false ∨ s.car.fault = true →
        Completes (.carStatus mode position fault order lastPhase) s { s with car := k }) ∧
      (r.fault = true → s.car.fault = false →
        Completes (.carStatus mode position fault order lastPhase) s (({ s with car := k }).raise .car))) ∧
    (∀ (e : CarRequest) (rest : List CarRequest) (t : Trip) (y : Transfer) (m : Nat), s.car.current = none →
      s.car.queue = e :: rest → s.car.work = .idle → s.car.configured = true → r.mode = .auto → r.fault = false →
      (s.car.notReady = false ∨ r.order = 0) → (s.line e.crane).trip = some t → t.transfer = some y →
      m = nextOrderNumber s.car.orderNumber r.order →
      Completes (.carStatus mode position fault order lastPhase) s
        (({ s with car := { k with
          queue := rest
          current := some ⟨m, e.crane, e.fromAisle, e.toAisle, t.number⟩
          orderNumber := m
          work := .ordering
          orderWaiting := false
          exchange := some ⟨true, .order m e.crane e.fromAisle e.toAisle, 0, s.settings.tack⟩
          sent := s.car.sent ++ [CarTelegram.order m e.crane e.fromAisle e.toAisle] } }).setLine e.crane
          { s.line e.crane with trip := some { t with transfer := some { y with stage := .serving } } })) ∧
    (∀ q : CurrentRequest, s.car.current = some q → s.car.link ≠ .up → s.car.work ≠ .idle → r.order ≠ q.order →
      r.fault = false →
      Completes (.carStatus mode position fault order lastPhase) s
        { s with car := { k with
          orderWaiting := false
          exchange := some ⟨true, .order q.order q.crane q.fromAisle q.toAisle, 0, s.settings.tack⟩
          sent := s.car.sent ++ [CarTelegram.order q.order q.crane q.fromAisle q.toAisle] } }) ∧
    (∀ q : CurrentRequest, s.car.current = some q → s.car.work = .ordering → r.order = q.order → r.lastPhase = none →
      r.fault = false →
      Completes (.carStatus mode position fault order lastPhase) s
        { s with car := { k with work := .fetching, jobTimer := some 0, orderWaiting := false } })

/-- R102, R109, R110: the car answer timer resends the telegram below the resend limit, and at it makes the link LOST,
raising CAR and keeping the current request; a poll interval of silence sends a POLL, as an exchange only while the
link is UP; the running car job timer reaching its timeout sets the overdue flag and raises CAR. The job timer counts
tenths (assumption 9); after a failed exchange the silence timer starts afresh (assumption 17). -/
def Obligations.CarTimersExpire : Prop :=
  ∀ s : State, s.Settled →
    (∀ x, s.car.exchange = some x → x.resends < s.settings.resendLimit →
      Completes .carAnswerTimerExpiry s
        { s with car := { s.car with
          exchange := some { x with resends := x.resends + 1, period := s.settings.tack }
          sent := s.car.sent ++ [x.telegram] } }) ∧
    (∀ x, s.car.exchange = some x → s.settings.resendLimit ≤ x.resends →
      Completes .carAnswerTimerExpiry s
        (({ s with car := { s.car with
          link := .lost, exchange := none, orderWaiting := false, silence := s.settings.pollInterval } }).raise .car)) ∧
    (s.car.link = .up → s.car.exchange = none →
      Completes .carPollIntervalExpiry s
        { s with car := { s.car with
          exchange := some ⟨false, .poll, 0, s.settings.tack⟩
          sent := s.car.sent ++ [CarTelegram.poll] } }) ∧
    (s.car.link ≠ .up →
      Completes .carPollIntervalExpiry s
        { s with car := { s.car with silence := s.settings.pollInterval, sent := s.car.sent ++ [CarTelegram.poll] } }) ∧
    (∀ n, s.car.jobTimer = some n → s.car.overdue = false →
      Completes .carJobTimeout s
        (({ s with car := { s.car with
          overdue := true, jobTimer := some (max n (s.car.timeout * 10)) } }).raise .car))

/-! ## Crane lines -/

/-- R133: SET LINES writes the three values, each brought to the nearer bound, and answers with them; timers that run
keep their periods, since nothing else changes. -/
def Obligations.LineSettingsAreWritten : Prop :=
  ∀ (n : Byte) (b : List Byte) (s : State), b.length = 5 → s.hasTurn ⟨0x60, n, b⟩ →
    exec (.setLines n b) s =
      .next (({ s.popRequest with settings :=
        ⟨max 50 (min 2000 (wordAt b 0)), min 7 (byteAt b 2), max 200 (min 10000 (wordAt b 3))⟩ }).answer
        ⟨0x60, n, b⟩ .ok
        (putFlag (decide (wordAt b 0 < 50 ∨ 2000 < wordAt b 0 ∨ 7 < byteAt b 2 ∨ wordAt b 3 < 200 ∨
            10000 < wordAt b 3)) ++
          put2 (max 50 (min 2000 (wordAt b 0))) ++ put1 (min 7 (byteAt b 2)) ++
          put2 (max 200 (min 10000 (wordAt b 3)))))

/-- R134, R162: RESTART LINE sends RESTART, makes the link ABSENT, ends the open exchange, empties the stale cancels
and abandons an introduction, keeping the context, every counter, the marks and the last trip number. With a trip of one
open leg and no transfer its job enters STRANDED with its assignment kept, STRANDED is raised, and the trip record is
cleared, the crane being IDLE. The summary conditions are then taken afresh (R117, R173), and nothing else changes. That
the silence timer starts afresh is assumption 17. -/
def Obligations.RestartedLineStrandsItsTrip : Prop :=
  ∀ (n : Byte) (b : List Byte) (c : Fin 8) (s : State), s.Settled → b.length = 1 → byteAt b 0 = c.val →
    s.hasTurn ⟨0x61, n, b⟩ →
    ((s.line c).trip = none →
      exec (.restartLine n b) s =
        .next ((s.popRequest.setLine c { s.line c with
          link := .absent
          exchange := none
          stale := []
          silence := s.settings.pollInterval
          introTimer := none
          notReady := false
          reconcileDue := false
          strandedCheck := false
          sent := (s.line c).sent ++ [Telegram.restart] }).takeConditions.answer ⟨0x61, n, b⟩ .ok [])) ∧
    (∀ (t : Trip) (i : Nat) (j : Job), (s.line c).trip = some t → t.transfer = none →
      (∃ w v, t.legs = [⟨1, i, false, w, v⟩]) → s.job i = some j →
      exec (.restartLine n b) s =
        .next ((((s.popRequest.setJob i { j with state := .stranded }).raise .stranded).setLine c { s.line c with
          link := .absent
          exchange := none
          stale := []
          silence := s.settings.pollInterval
          introTimer := none
          notReady := false
          reconcileDue := false
          strandedCheck := false
          trip := none
          ctx := { (s.line c).ctx with work := .idle }
          sent := (s.line c).sent ++ [Telegram.restart] }).takeConditions.answer ⟨0x61, n, b⟩ .ok []))

/-- R121, R137: a base page with its more flag set, from a crane without a trip, starts an introduction in every link
state: its content goes into the context, which forgets aisle, at-head, active faults, NAK-fault, reference and name, the
latched faults, both enables, the aisle-conflict flag, disabled and drained being kept, and every counter; open exchange
and stale cancels go, and PAGE ACK 0 is sent. The summary conditions are then taken afresh, and nothing else changes. -/
def Obligations.BasePageStartsIntroduction : Prop :=
  ∀ (c : Fin 8) (content : BitVec 64) (dual : Bool) (s : State), s.Settled → (s.line c).trip = none →
    readFlag (pageByte content 3) = some dual →
    exec (.basePage c true content) s =
      .next (s.setLine c { s.line c with
        link := .introducing
        introTimer := some 5000
        pagesTaken := 0
        lastToggle := false
        notReady := false
        exchange := none
        stale := []
        silence := s.settings.pollInterval
        sent := (s.line c).sent ++ [Telegram.pageAck false]
        ctx := { (s.line c).ctx with
          protocolLevel := some (pageByte content 0)
          serial := some (pageWord content 1)
          dualCapable := some dual
          forkDepth := some (max 1 (min 2 (pageByte content 4)))
          name := none
          clamped := decide (pageByte content 4 < 1 ∨ 2 < pageByte content 4)
          aisle := .unknown
          atHead := false
          active := 0
          nakFault := false
          referenced := false } }).takeConditions

/-- R122, R123, R124: while INTRODUCING, a next page whose toggle is the last accepted one is answered and not applied;
the new page at place 1 with more set gives h, v and a, each brought to its bounds; the new page at place 2 with more
clear gives fF, fR and the class set and completes the introduction: the link is UP, INTRO is raised, and the marks for
the first STATUS are set. The introduction timer's expiry fails it: RESTART is sent and the link is ABSENT. -/
def Obligations.NextPagesCompleteIntroduction : Prop :=
  ∀ (c : Fin 8) (toggle more : Bool) (content : BitVec 64) (s : State), s.Settled →
    (s.line c).link = .introducing →
    (toggle = (s.line c).lastToggle →
      Completes (.nextPage c toggle more content) s
        (s.setLine c { s.line c with
          silence := s.settings.pollInterval, sent := (s.line c).sent ++ [Telegram.pageAck toggle] })) ∧
    (toggle ≠ (s.line c).lastToggle → (s.line c).pagesTaken = 0 → more = true →
      Completes (.nextPage c toggle more content) s
        (s.setLine c { s.line c with
          silence := s.settings.pollInterval
          sent := (s.line c).sent ++ [Telegram.pageAck toggle]
          pagesTaken := 1
          lastToggle := toggle
          ctx := { (s.line c).ctx with
            h := some (max 10 (min 2000 (pageWord content 0)))
            v := some (max 10 (min 5000 (pageWord content 2)))
            a := some (min 10000 (pageWord content 4))
            clamped := (s.line c).ctx.clamped ||
              decide (pageWord content 0 < 10 ∨ 2000 < pageWord content 0 ∨ pageWord content 2 < 10 ∨
                5000 < pageWord content 2 ∨ 10000 < pageWord content 4) } })) ∧
    (toggle ≠ (s.line c).lastToggle → (s.line c).pagesTaken = 1 → more = false →
      Completes (.nextPage c toggle more content) s
        ((s.setLine c { s.line c with
          link := .up
          introTimer := none
          reconcileDue := true
          strandedCheck := true
          silence := s.settings.pollInterval
          sent := (s.line c).sent ++ [Telegram.pageAck toggle]
          pagesTaken := 2
          lastToggle := toggle
          ctx := { (s.line c).ctx with
            fF := some (max 1000 (min 30000 (pageWord content 0)))
            fR := some (max 1000 (min 40000 (pageWord content 2)))
            classes := some (BitVec.ofNat 16 (pageWord content 4))
            clamped := (s.line c).ctx.clamped ||
              decide (pageWord content 0 < 1000 ∨ 30000 < pageWord content 0 ∨ pageWord content 2 < 1000 ∨
                40000 < pageWord content 2)
            work := .idle } }).raise .intro)) ∧
    Completes (.introductionTimerExpiry c) s
      (s.setLine c { s.line c with
        link := .absent
        introTimer := none
        reconcileDue := false
        strandedCheck := false
        sent := (s.line c).sent ++ [Telegram.restart] })

/-- R126: an ORDER ACK of the open ORDER, for a trip of one leg whose job's withdrawal is not asked for and with no stale
cancel waiting, closes the exchange: the trip is ACCEPTED, the crane BUSY and the job ACTIVE with its assignment kept. -/
def Obligations.OrderAckAcceptsTheTrip : Prop :=
  ∀ (c : Fin 8) (n : Byte) (t : Trip) (x : Exchange) (i : Nat) (j : Job) (s : State), s.Settled →
    (s.line c).link = .up → (s.line c).trip = some t → t.legs = [⟨1, i, false, false, false⟩] →
    (s.line c).exchange = some x → x.kind = .order n.toNat → (s.line c).stale = [] → s.job i = some j →
    j.withdrawRequested = false →
    Completes (.orderAck c n) s
      ((s.setJob i { j with state := .active }).setLine c { s.line c with
        exchange := none
        silence := s.settings.pollInterval
        trip := some { t with accepted := true }
        ctx := { (s.line c).ctx with work := .busy } })

/-- R127, R128: an ORDER NAK of the open ORDER dissolves a trip of one leg without transfer: its job returns to READY with
its refusal count raised, the crane is IDLE, and the reason has its effect: MANUAL makes the mode MANUAL, FAULT sets the
NAK-fault flag, BUSY the not-ready mark, and CANNOT adds the crane to the job's excluded cranes. R129: a STATUS with trip
in hand 0 that reports a mode other than AUTO, or leaves an active fault, discards the open ORDER: the trip is dissolved in
the same way, with no refusal counted and no crane excluded. Here the STATUS finds the crane where it stood, in an aisle
whose lock it holds, and brings no newly active fault. -/
def Obligations.OrderNakDissolvesTheTrip : Prop :=
  ∀ (c : Fin 8) (t : Trip) (x : Exchange) (m i : Nat) (j : Job) (s : State), s.Settled → (s.line c).link = .up →
    (s.line c).trip = some t → t.transfer = none → t.legs = [⟨1, i, false, false, false⟩] →
    (s.line c).exchange = some x → x.kind = .order m → (s.line c).stale = [] → s.job i = some j →
    j.withdrawRequested = false → j.kind ≠ .relocate →
    (∀ (n reason : Byte) (k : NakReason), m = n.toNat → readNakReason reason.toNat = some k →
      Completes (.orderNak c n reason) s
        ((s.setJob i { j with
          state := .ready
          reason := none
          assignment := none
          refusals := min 255 (j.refusals + 1)
          excluded := if k = NakReason.cannot then j.excluded ||| craneBit c else j.excluded }).tellDispatcher.setLine c
          { s.line c with
            exchange := none
            silence := s.settings.pollInterval
            trip := none
            notReady := if k = NakReason.busy then true else (s.line c).notReady
            ctx := { (s.line c).ctx with
              work := .idle
              mode := if k = NakReason.manual then CraneMode.manual else (s.line c).ctx.mode
              nakFault := if k = NakReason.fault then true else (s.line c).ctx.nakFault } })) ∧
    (∀ (mode aisle bay level flags faults trip leg : Byte) (r : StatusReport) (z : Fin 16),
      readStatus mode aisle bay level flags faults trip leg = some r → r.aisle = .inAisle z → r.trip = 0 →
      m ≠ 0 → (s.aisle z).geometry.isSome = true → s.holdsLock c z = true →
      (s.line c).ctx.aisle = .inAisle z → (s.line c).reconcileDue = false → (s.line c).strandedCheck = false →
      (s.line c).ctx.newlyActive r = 0 → (r.mode ≠ .auto ∨ r.faults &&& (s.line c).ctx.detect ≠ 0) →
      Completes (.status c mode aisle bay level flags faults trip leg) s
        ((s.setJob i { j with state := .ready, reason := none, assignment := none }).tellDispatcher.setLine c
          { s.line c with
            exchange := none
            silence := s.settings.pollInterval
            trip := none
            notReady := false
            ctx := { (s.line c).ctx.reported r z with work := .idle } }))

/-- R138, R139, R140, R141: a STATUS that reports a configured aisle, from an UP crane without trip, exchange and stale
cancel, is taken whole: mode, faults by the enables, position, at-head, trip and leg; referenced is NO when POSITION is
newly active; the NAK-fault flag is cleared; a trip in hand 0 clears the not-ready mark; newly active faults raise
CRANE_FAULT. The first two clauses say so of a crane that stays in its aisle, whose lock it holds. R99, R100: where
reconciliation is called for, a crane that holds the lock of the reported aisle, or finds it free or held by a crane
that is LOST or ABSENT, has it; its other lock, if it holds one, is released, of which the Dispatcher is told, and the
aisle-conflict flag is cleared. Where a crane that is UP or INTRODUCING holds the lock, no lock changes, and the flag
is set, raising CRANE_FAULT when it was clear. Either way the reconciliation-due mark is cleared. R163, R164: at the
first STATUS after an introduction, a trip in hand that names one STRANDED job of the crane rebuilds its trip: the job
is ACTIVE with its assignment kept, the crane BUSY, and the transfer absent or to the job's aisle, whose lock the crane
keeps. R131, R163: one that names no STRANDED job is a trip the controller does not know, and its CANCEL ALL is sent.
R104, R105: a crane at the head of its aisle, with an accepted trip whose transfer is at TO_HEAD, joins the tail of the
car queue, the transfer QUEUED from the reported aisle; when the car may be served and nothing waits before it, it is
served at once, the transfer SERVING and the CAR ORDER sent; when it already stands in the to aisle, no entry is made
and the stage becomes DONE (that the from aisle takes the aisle then too is assumption 35). -/
def Obligations.StatusIsTakenWhole : Prop :=
  (∀ (c : Fin 8) (mode aisle bay level flags faults trip leg : Byte) (r : StatusReport) (z : Fin 16) (l : Line)
    (s : State), s.Settled → readStatus mode aisle bay level flags faults trip leg = some r →
    r.aisle = .inAisle z → (s.aisle z).geometry.isSome = true → (s.line c).link = .up →
    (s.line c).trip = none → (s.line c).exchange = none → (s.line c).stale = [] →
    l = { s.line c with
      silence := s.settings.pollInterval
      notReady := if r.trip = 0 then false else (s.line c).notReady
      ctx := (s.line c).ctx.reported r z } →
    (r.trip = 0 → (s.line c).strandedCheck = false → (s.line c).reconcileDue = false → s.holdsLock c z = true →
      (s.line c).ctx.aisle = .inAisle z →
      ((s.line c).ctx.newlyActive r = 0 →
        Completes (.status c mode aisle bay level flags faults trip leg) s (s.setLine c l)) ∧
      ((s.line c).ctx.newlyActive r ≠ 0 →
        Completes (.status c mode aisle bay level flags faults trip leg) s ((s.setLine c l).raise .craneFault))) ∧
    (r.trip = 0 → (s.line c).strandedCheck = false → (s.line c).ctx.newlyActive r = 0 → s.car.current = none →
      ((s.line c).reconcileDue = true ∨ (s.line c).ctx.aisle ≠ .inAisle z ∨ s.holdsLock c z = false) →
      ((∀ d, (s.aisle z).lock = some d → d = c ∨ (s.line d).link = .lost ∨ (s.line d).link = .absent) →
        ((∀ a, a ≠ z → s.holdsLock c a = false) →
          Completes (.status c mode aisle bay level flags faults trip leg) s
            ((s.setAisle z { s.aisle z with lock := some c }).setLine c
              { l with reconcileDue := false, ctx := { l.ctx with conflict := false } })) ∧
        (∀ y, y ≠ z → s.holdsLock c y = true → (∀ a, a ≠ z → a ≠ y → s.holdsLock c a = false) →
          Completes (.status c mode aisle bay level flags faults trip leg) s
            (((s.setAisle z { s.aisle z with lock := some c }).setAisle y
              { s.aisle y with lock := none }).tellDispatcher.setLine c
              { l with reconcileDue := false, ctx := { l.ctx with conflict := false } }))) ∧
      (∀ d, (s.aisle z).lock = some d → d ≠ c → (s.line d).link = .up ∨ (s.line d).link = .introducing →
        ((s.line c).ctx.conflict = false →
          Completes (.status c mode aisle bay level flags faults trip leg) s
            ((s.setLine c { l with reconcileDue := false, ctx := { l.ctx with conflict := true } }).raise .craneFault)) ∧
        ((s.line c).ctx.conflict = true →
          Completes (.status c mode aisle bay level flags faults trip leg) s
            (s.setLine c { l with reconcileDue := false })))) ∧
    (∀ (i k : Nat) (j : Job), (s.line c).strandedCheck = true → (s.line c).reconcileDue = true → r.trip ≠ 0 →
      r.atHead = false → (s.line c).ctx.newlyActive r = 0 → s.car.current = none → s.strandedTrip c r.trip = [i] →
      s.job i = some j → j.assignment = some ⟨c, r.trip, k⟩ → j.withdrawRequested = false → s.holdsLock c z = true →
      (∀ a, a ≠ z → a ≠ j.aisle → s.holdsLock c a = false) →
      Completes (.status c mode aisle bay level flags faults trip leg) s
        ((s.setJob i { j with state := .active }).setLine c
          { l with
            reconcileDue := false
            strandedCheck := false
            trip := some ⟨r.trip, [⟨k, i, false, false, false⟩],
              if z = j.aisle then none else some ⟨some z, j.aisle, .toHead⟩, true, true⟩
            ctx := { l.ctx with conflict := false, work := .busy } })) ∧
    (r.trip ≠ 0 → (s.line c).reconcileDue = false → s.holdsLock c z = true → (s.line c).ctx.aisle = .inAisle z →
      (s.line c).ctx.newlyActive r = 0 → s.strandedTrip c r.trip = [] →
      Completes (.status c mode aisle bay level flags faults trip leg) s
        (s.setLine c { l with
          strandedCheck := false
          exchange := some ⟨.cancelAll r.trip, .cancel r.trip 0, 0, s.settings.tack⟩
          sent := (s.line c).sent ++ [Telegram.cancel r.trip 0] }))) ∧
  ∀ (c : Fin 8) (mode aisle bay level flags faults trip leg : Byte) (r : StatusReport) (z : Fin 16) (l : Line)
    (t : Trip) (y : Transfer) (s : State), s.Settled →
    readStatus mode aisle bay level flags faults trip leg = some r → r.aisle = .inAisle z → r.atHead = true →
    (s.aisle z).geometry.isSome = true → (s.line c).ctx.aisle = .inAisle z → s.holdsLock c z = true →
    (s.line c).reconcileDue = false → (s.line c).link = .up → (s.line c).exchange = none → (s.line c).stale = [] →
    (s.line c).ctx.newlyActive r = 0 → (s.line c).trip = some t → t.number = r.trip → t.accepted = true →
    (∀ g ∈ t.legs, g.cancelWanted = false) → t.transfer = some y → y.stage = .toHead → s.beingCarried c = false →
    l = { s.line c with
      silence := s.settings.pollInterval
      notReady := if r.trip = 0 then false else (s.line c).notReady
      strandedCheck := false
      ctx := (s.line c).ctx.reported r z } →
    (z = y.toAisle →
      Completes (.status c mode aisle bay level flags faults trip leg) s
        (s.setLine c { l with
          trip := some { t with transfer := some { y with fromAisle := some z, stage := .done } } })) ∧
    (z ≠ y.toAisle → s.car.mayServe = false →
      Completes (.status c mode aisle bay level flags faults trip leg) s
        (({ s with car := { s.car with queue := s.car.queue ++ [(⟨c, z, y.toAisle⟩ : CarRequest)] } }).setLine c { l with
          trip := some { t with transfer := some { y with fromAisle := some z, stage := .queued } } })) ∧
    (∀ m : Nat, z ≠ y.toAisle → s.car.mayServe = true → s.car.queue = [] → s.car.exchange = none →
      m = nextOrderNumber s.car.orderNumber s.car.orderInHand →
      Completes (.status c mode aisle bay level flags faults trip leg) s
        (({ s with car := { s.car with
          current := some ⟨m, c, z, y.toAisle, t.number⟩
          orderNumber := m
          work := .ordering
          orderWaiting := false
          exchange := some ⟨true, .order m c z y.toAisle, 0, s.settings.tack⟩
          sent := s.car.sent ++ [CarTelegram.order m c z y.toAisle] } }).setLine c { l with
          trip := some { t with transfer := some { y with fromAisle := some z, stage := .serving } } }))

/-- R132, R157, R158, R46, R47, R48, R156: a LEG DONE for the one open leg of an accepted trip without transfer, while no
job waits PENDING: DONE ACK is sent, the trip is cleared and the crane is IDLE, and the job and its slots take the effect of
the outcome for the job's kind, which `LegEffect` lists: of a STORE COMPLETED the slot becomes OCCUPIED with the job's class
and loses its IN, and the job enters DONE COMPLETED at the tail of the DONE list with JOB_DONE raised; likewise RETRIEVE and
RELOCATE, SLOT_OCCUPIED, SLOT_EMPTY, TARGET_OCCUPIED, LOAD_REFUSED, CANCELLED, ABORTED, and outcomes not allowed for the
kind. R8, R12, R81, R83: with a withdrawal asked for, a relocation without a dependent, and a member at its group's next
rank. R166: a late LEG DONE, for a STRANDED job of a crane without a trip, has the same effect on the job and its slots
and touches no trip. -/
def Obligations.LegDoneCompletesTheStore : Prop :=
  ∀ (c : Fin 8) (n k outcome position : Byte) (i : Nat) (j : Job) (s u : State), s.Settled → s.NothingPending →
    (s.line c).link = .up → (s.line c).exchange = none → (s.line c).stale = [] → s.job i = some j →
    LegEffect s i j outcome.toNat position.toNat u →
    (∀ (t : Trip) (w x : Bool), (s.line c).trip = some t → t.number = n.toNat → t.transfer = none → t.accepted = true →
      t.orderSent = true → t.legs = [⟨k.toNat, i, false, w, x⟩] → j.state = .active →
      Completes (.legDone c n k outcome position) s
        (u.setLine c { s.line c with
          silence := s.settings.pollInterval
          sent := (s.line c).sent ++ [Telegram.doneAck n.toNat k.toNat]
          trip := none
          ctx := { (s.line c).ctx with work := .idle } })) ∧
    ((s.line c).trip = none → s.strandedLeg c n.toNat k.toNat = some (i, j) →
      Completes (.legDone c n k outcome position) s
        (u.setLine c { s.line c with
          silence := s.settings.pollInterval
          sent := (s.line c).sent ++ [Telegram.doneAck n.toNat k.toNat] }))

/-- R131, R132, R160: a CANCEL ANSWER of an open CANCEL ALL closes it and leaves jobs, slots, locks, car, context and the
other lines as they stand (counters, drained marks, alerts and told passes apart); a CANCEL ANSWER TAKEN of
the open CANCEL of a trip's one open leg, whose job is a RETRIEVE without group and link, while no job waits PENDING, puts
the job into DONE WITHDRAWN, releases its OUT and clears the trip. -/
def Obligations.CancelAnswerEndsTheCancel : Prop :=
  ∀ (c : Fin 8) (n leg verdict : Byte) (x : Exchange) (s : State), s.Settled → (s.line c).link = .up →
    (s.line c).exchange = some x → (s.line c).stale = [] →
    (x.kind = .cancelAll n.toNat → (s.line c).trip = none → (verdict = 1 ∨ verdict = 2) →
      Completes (.cancelAnswer c n leg verdict) s
        (s.setLine c { s.line c with exchange := none, silence := s.settings.pollInterval })) ∧
    (∀ (t : Trip) (w : Bool) (i : Nat) (j : Job) (p : SlotPos), s.NothingPending → x.kind = .cancel n.toNat 1 →
      leg = 1 → verdict = 1 → (s.line c).trip = some t → t.number = n.toNat → t.transfer = none →
      t.legs = [⟨1, i, false, w, true⟩] → s.job i = some j → j.kind = .retrieve → j.group = none → j.link = none →
      j.choice = none → j.slot = some p → j.target = none → (s.slot j.aisle p).reservation = some ⟨.outOf, i⟩ →
      Completes (.cancelAnswer c n leg verdict) s
        ((({ (s.putSlot j.aisle p { s.slot j.aisle p with reservation := none }).setJob i
          { j with state := .done, reason := none, assignment := none, link := none, outcome := some .withdrawn } with
          done := s.done ++ [i] }).raise .jobDone).setLine c
          { s.line c with
            exchange := none
            silence := s.settings.pollInterval
            trip := none
            ctx := { (s.line c).ctx with work := .idle } }))

/-- R115, R186, R148, R149, R150: a telegram of 1 to 64 content bytes whose check value does not agree with its length byte
and content is discarded. On a crane line it is a bad frame event: each of the crane's counters that selects input 8
counts one, a combined A counter only while its B counter selects a state input that holds, and no other counter counts.
Unless such a count wraps with drain enable, nothing else changes; in every case nothing changes but this crane's counters
and drained mark, and the alerts. (A combined A counter beside a B counter that selects IDLE-eligible, input 12, is left to
assumption 12.) On the car line nothing changes. What bytes the row carries is assumption 19. -/
def Obligations.BadTelegramIsDiscarded : Prop :=
  ∀ (len x y : Byte) (content : List Byte) (s : State), s.Settled → 1 ≤ len.toNat → len.toNat ≤ 64 →
    content.length = len.toNat → [x, y] ≠ put2 (crc16 (len :: content)).toNat →
    (∀ (c : Fin 8) (k : Counters), (s.line c).gathered = [] → k = (s.line c).counters →
      ∃ t : State, exec (.telegramDiscarded (.crane c) (2 :: len :: content ++ [x, y])) s = .next t ∧ t.Settled ∧
        t.bare = s.bare ∧ s.Grows t ∧ t.disp = s.disp ∧ (∀ d, d ≠ c → t.line d = s.line d) ∧
        (t.line c).counters.combine0 = k.combine0 ∧ (t.line c).counters.combine1 = k.combine1 ∧
        (t.line c).counters.b0 = (if k.b0.select = 8 then k.b0.count else k.b0) ∧
        (t.line c).counters.b1 = (if k.b1.select = 8 then k.b1.count else k.b1) ∧
        (k.combine0 = false → (t.line c).counters.a0 = if k.a0.select = 8 then k.a0.count else k.a0) ∧
        (k.combine1 = false → (t.line c).counters.a1 = if k.a1.select = 8 then k.a1.count else k.a1) ∧
        (k.combine0 = true → k.b0.select ≠ 12 → (t.line c).counters.a0 =
          if k.a0.select = 8 ∧ isStateInput k.b0.select = true ∧ s.inputHolds c k.b0.select = true
          then k.a0.count else k.a0) ∧
        (k.combine1 = true → k.b1.select ≠ 12 → (t.line c).counters.a1 =
          if k.a1.select = 8 ∧ isStateInput k.b1.select = true ∧ s.inputHolds c k.b1.select = true
          then k.a1.count else k.a1) ∧
        (k.a0.select ≠ 8 → (t.line c).counters.a0 = k.a0) ∧ (k.a1.select ≠ 8 → (t.line c).counters.a1 = k.a1) ∧
        ((∀ id, (k.get id).select = 8 → (k.get id).drains = false) →
          t = s.setLine c { s.line c with counters := (t.line c).counters })) ∧
    (s.car.gathered = [] → exec (.telegramDiscarded .car (2 :: len :: content ++ [x, y])) s = .next s)

/-- R118, R117, R130, R162: the answer timer of an open exchange resends its telegram below the resend limit; at the
limit the exchange, an ORDER or any other, fails: the link becomes LOST, CRANE_LOST is raised, and exchange and stale
cancels go. A trip of one unfinished leg without transfer is stranded: its job enters STRANDED with its assignment
kept, STRANDED is raised, the trip record is cleared and the crane is IDLE. Without an open exchange no answer timer
runs, and nothing happens (assumption 6). After a failed exchange the silence timer starts afresh (assumption 17). -/
def Obligations.AnswerTimerResendsOrLosesTheLink : Prop :=
  ∀ (c : Fin 8) (s : State), s.Settled →
    (∀ x, (s.line c).exchange = some x → x.resends < s.settings.resendLimit →
      Completes (.answerTimerExpiry c) s
        (s.setLine c { s.line c with
          exchange := some { x with resends := x.resends + 1, period := s.settings.tack }
          sent := (s.line c).sent ++ [x.telegram] })) ∧
    (∀ x, (s.line c).exchange = some x → s.settings.resendLimit ≤ x.resends → (s.line c).trip = none →
      Completes (.answerTimerExpiry c) s
        ((s.setLine c { s.line c with
          link := .lost, exchange := none, stale := [], silence := s.settings.pollInterval }).raise .craneLost)) ∧
    (∀ (x : Exchange) (t : Trip) (i : Nat) (j : Job) (w v : Bool), (s.line c).exchange = some x →
      s.settings.resendLimit ≤ x.resends → (s.line c).trip = some t → t.transfer = none →
      t.legs = [⟨1, i, false, w, v⟩] → s.job i = some j →
      Completes (.answerTimerExpiry c) s
        ((((s.setJob i { j with state := .stranded }).raise .stranded).setLine c { s.line c with
          link := .lost
          exchange := none
          stale := []
          silence := s.settings.pollInterval
          trip := none
          ctx := { (s.line c).ctx with work := .idle } }).raise .craneLost)) ∧
    ((s.line c).exchange = none → exec (.answerTimerExpiry c) s = .next s)

/-- R120: a poll interval of silence sends a POLL: as an exchange while the link is UP with none open and nothing
waiting, whether the crane holds no trip or an accepted one with no CANCEL to send; without one while ABSENT or LOST;
and none while INTRODUCING. -/
def Obligations.SilenceSendsPoll : Prop :=
  ∀ (c : Fin 8) (s : State), s.Settled →
    ((s.line c).link = .up → (s.line c).exchange = none → (s.line c).stale = [] →
      (∀ t, (s.line c).trip = some t → t.accepted = true ∧
        ∀ g ∈ t.legs, g.cancelWanted = false ∨ g.cancelSent = true ∨ g.finished = true) →
      Completes (.pollIntervalExpiry c) s
        (s.setLine c { s.line c with
          exchange := some ⟨.poll, .poll, 0, s.settings.tack⟩, sent := (s.line c).sent ++ [Telegram.poll] })) ∧
    ((s.line c).link = .absent ∨ (s.line c).link = .lost →
      Completes (.pollIntervalExpiry c) s
        (s.setLine c { s.line c with
          silence := s.settings.pollInterval, sent := (s.line c).sent ++ [Telegram.poll] })) ∧
    ((s.line c).link = .introducing → exec (.pollIntervalExpiry c) s = .next s)

/-! ## Crane contexts and counters -/

/-- R144, R145: SET CRANE writes disabled and the two enables, takes out of the active set what is no longer detected,
and clears drained when told to; CLEAR FAULTS takes out of the latched set what is not active. Each answers with what then
stands. -/
def Obligations.CraneMarksAreWritten : Prop :=
  ∀ (n : Byte) (b : List Byte) (c : Fin 8) (s : State), s.Settled → byteAt b 0 = c.val →
    (∀ d k : Bool, b.length = 5 → byteAt b 1 = d.toNat → byteAt b 2 = k.toNat → s.hasTurn ⟨0x70, n, b⟩ →
      ∃ t : State, exec (.setCrane n b) s = .next t ∧ t.Settled ∧
        (t.line c).ctx =
          { (s.line c).ctx with
            disabled := d
            drained := (t.line c).ctx.drained
            detect := BitVec.ofNat 8 (byteAt b 3)
            latch := BitVec.ofNat 8 (byteAt b 4)
            active := (s.line c).ctx.active &&& BitVec.ofNat 8 (byteAt b 3) } ∧
        (k = false → (s.line c).ctx.drained = true → (t.line c).ctx.drained = true) ∧
        (k = true → (∀ id, isStateInput ((s.line c).counters.get id).select = false) →
          (t.line c).ctx.drained = false) ∧
        (∀ e, e ≠ c → (t.line e).bare = (s.line e).bare) ∧ t.jobs = s.jobs ∧ t.slots = s.slots ∧
        t.aisles = s.aisles ∧ t.car = s.car ∧
        t.host.replies = s.host.replies ++ [⟨0x70, n, .ok,
          putFlag d ++ putFlag (t.line c).ctx.drained ++ put1 (byteAt b 3) ++ put1 (byteAt b 4) ++
            put1 ((s.line c).ctx.active &&& BitVec.ofNat 8 (byteAt b 3)).toNat ++
            put1 (s.line c).ctx.latched.toNat⟩]) ∧
    (b.length = 1 → s.hasTurn ⟨0x71, n, b⟩ →
      Completes (.clearFaults n b) s
        ((s.popRequest.setLine c { s.line c with ctx := { (s.line c).ctx with
          latched := (s.line c).ctx.latched &&& (s.line c).ctx.active } }).answer ⟨0x71, n, b⟩ .ok
          (put1 ((s.line c).ctx.latched &&& (s.line c).ctx.active).toNat ++ put1 (s.line c).ctx.active.toNat)))

/-- R151, R152: SET COUNTERS with every field in range writes the four counters with their overflow flags clear and the
two combine flags; READ COUNTERS answers with the counters as they stand and, when asked to clear, then sets every value
to 0 and every overflow flag to CLEAR, and changes nothing else. -/
def Obligations.CountersAreSetAndRead : Prop :=
  ∀ (n : Byte) (b : List Byte) (c : Fin 8) (k : Counters) (s : State), byteAt b 0 = c.val → k = (s.line c).counters →
    (∀ (x y z w : Counter) (f g : Bool), b.length = 27 → readCounter b 1 = some x → readCounter b 7 = some y →
      readCounter b 13 = some z → readCounter b 19 = some w → byteAt b 25 = f.toNat → byteAt b 26 = g.toNat →
      s.hasTurn ⟨0x73, n, b⟩ →
      exec (.setCounters n b) s =
        .next ((s.popRequest.setLine c { s.line c with counters := ⟨x, y, z, w, f, g⟩ }).answer ⟨0x73, n, b⟩ .ok
          (x.put ++ y.put ++ z.put ++ w.put ++ putFlag f ++ putFlag g))) ∧
    (b.length = 2 → s.hasTurn ⟨0x74, n, b⟩ →
      (byteAt b 1 = 0 →
        exec (.readCounters n b) s = .next (s.popRequest.answer ⟨0x74, n, b⟩ .ok k.put)) ∧
      (byteAt b 1 = 1 →
        exec (.readCounters n b) s =
          .next ((s.popRequest.setLine c { s.line c with counters :=
            { k with
              a0 := { k.a0 with value := 0, overflow := false }
              b0 := { k.b0 with value := 0, overflow := false }
              a1 := { k.a1 with value := 0, overflow := false }
              b1 := { k.b1 with value := 0, overflow := false } } }).answer ⟨0x74, n, b⟩ .ok k.put)))

/-- R148, R149, R150, R143: a count raises a counter below 16,777,215 by one. One more count of a counter at 16,777,215 that
selects an event input, a combined A counter while its B counter selects a state input that holds: in WRAP its value is 0
and its overflow flag set, and with drain enable its crane is drained and SERVICE raised; in SATURATE the value stays and
the flag is set; nothing else changes. A counter below the maximum does not overflow, and one that selects no input, or a
combined A counter whose gate is closed, counts nothing: the row then changes nothing (assumption 6), nor for a state
input, which counts by R148 alone. The row as a command of its own is assumption 11. That a combined A counter whose B
counter selects IDLE-eligible, input 12, is counted although its own wrap with drain enable ends that state is assumption
12. -/
def Obligations.CounterOverflows : Prop :=
  (∀ k : Counter, k.value < 16777215 → k.count = { k with value := k.value + 1 }) ∧
  ∀ (c : Fin 8) (id : CounterId) (k : Counter) (l : Counters) (s : State), s.Settled → l = (s.line c).counters →
    k = l.get id →
    (k.value = 16777215 → k.select ≠ 0 → isStateInput k.select = false →
      (id = .a0 → l.combine0 = true → isStateInput l.b0.select = true ∧ s.inputHolds c l.b0.select = true) →
      (id = .a1 → l.combine1 = true → isStateInput l.b1.select = true ∧ s.inputHolds c l.b1.select = true) →
      ∃ t : State, exec (.counterOverflow c id) s = .next t ∧ t.Settled ∧ t.bare = s.bare ∧ t.disp = s.disp ∧
        (∀ d, d ≠ c → t.line d = s.line d) ∧ (∀ other, other ≠ id → (t.line c).counters.get other = l.get other) ∧
        (t.line c).counters.combine0 = l.combine0 ∧ (t.line c).counters.combine1 = l.combine1 ∧
        (k.mode = .wrap → (t.line c).counters.get id = { k with value := 0, overflow := true }) ∧
        (k.mode = .saturate → (t.line c).counters.get id = { k with overflow := true }) ∧
        (k.mode = .wrap → k.drainEnable = true →
          (t.line c).ctx.drained = true ∧ t.host.alerts = s.host.alerts ||| alertBit .service) ∧
        (k.mode = .saturate ∨ k.drainEnable = false → (t.line c).ctx = (s.line c).ctx ∧ t.host = s.host)) ∧
    (k.value < 16777215 ∨ k.select = 0 ∨ isStateInput k.select = true ∨
      (id = .a0 ∧ l.combine0 = true ∧ (isStateInput l.b0.select = false ∨ s.inputHolds c l.b0.select = false)) ∨
      (id = .a1 ∧ l.combine1 = true ∧ (isStateInput l.b1.select = false ∨ s.inputHolds c l.b1.select = false)) →
      exec (.counterOverflow c id) s = .next s)

/-! ## Alerts, phases and the clock -/

/-- R175: READ ALERTS answers OK in every phase with the alert set, the mask, the conditions and the level of
ATTENTION, and changes nothing. The code of the level, 1 for asserted, is assumption 38. -/
def Obligations.ReadAlertsReportsAndChangesNothing : Prop :=
  ∀ (n : Byte) (s : State), s.hasTurn ⟨0x80, n, []⟩ →
    exec (.readAlerts n []) s =
      .next (s.popRequest.answer ⟨0x80, n, []⟩ .ok
        (put2 s.host.alerts.toNat ++ put2 s.host.mask.toNat ++ put2 s.host.conditions.toNat ++
          putFlag s.host.attention))

/-- R176, R177, R178: CLEAR ALERTS takes each selected alert out of the set unless it is a summary alert whose
condition is held, and answers with the set before and after; SET ALERT MASK writes the mask, or refuses a mask with a
member that names no alert. ATTENTION follows in the same event. The conditions meant are those last taken (assumption
31). The code of the level of ATTENTION in the reply is assumption 38. -/
def Obligations.AlertsAreClearedAndMasked : Prop :=
  ∀ (n : Byte) (b : List Byte) (s : State) (now mask : AlertSet), b.length = 2 →
    (now = s.host.alerts &&& ~~~(BitVec.ofNat 10 (wordAt b 0) &&& ~~~s.host.conditions) → s.hasTurn ⟨0x81, n, b⟩ →
      exec (.clearAlerts n b) s =
        .next (({ s.popRequest with host := { s.popRequest.host with
          alerts := now, attention := now &&& s.host.mask != 0 } }).answer ⟨0x81, n, b⟩ .ok
          (put2 s.host.alerts.toNat ++ put2 now.toNat))) ∧
    (s.hasTurn ⟨0x82, n, b⟩ →
      (wordAt b 0 < 1024 → mask = BitVec.ofNat 10 (wordAt b 0) →
        exec (.setAlertMask n b) s =
          .next (({ s.popRequest with host := { s.popRequest.host with
            mask := mask, attention := s.host.alerts &&& mask != 0 } }).answer ⟨0x82, n, b⟩ .ok
            (put2 (wordAt b 0) ++ putFlag (s.host.alerts &&& mask != 0)))) ∧
      (1024 ≤ wordAt b 0 →
        exec (.setAlertMask n b) s = .next (s.popRequest.answer ⟨0x82, n, b⟩ .badField [])))

/-- R181, R182, R147, R179: START in LOADING is refused with NOT_ALLOWED when no aisle is configured, or two or more are
and the car is not; otherwise it makes the phase RUNNING, sets the clock to 0 and tells the Dispatcher. HALT makes RUNNING
HALTED; RESUME makes HALTED RUNNING and tells the Dispatcher. HALT and RESUME leave the clock as it stands. Nothing else
changes but the request list and the reply: every counter, every crane line, the alerts and ATTENTION stand as they are.
That a crane which becomes eligible by the new phase is then no counted entry of IDLE-eligible (R148) is assumption 37. -/
def Obligations.RunRequestsChangeThePhase : Prop :=
  ∀ (n : Byte) (s : State),
    (s.phase = .loading → s.hasTurn ⟨0x90, n, []⟩ →
      (s.configuredAisles = 0 ∨ (2 ≤ s.configuredAisles ∧ s.car.configured = false) →
        exec (.start n []) s = .next (s.popRequest.answer ⟨0x90, n, []⟩ .notAllowed [])) ∧
      (s.configuredAisles = 1 ∨ (2 ≤ s.configuredAisles ∧ s.car.configured = true) →
        exec (.start n []) s =
          .next (({ s.popRequest with phase := .running, clock := ⟨0, 0⟩ }).tellDispatcher.answer ⟨0x90, n, []⟩ .ok
            [1, 0, 0, 0, 0, 0]))) ∧
    (s.phase = .running → s.hasTurn ⟨0x91, n, []⟩ →
      exec (.halt n []) s =
        .next (({ s.popRequest with phase := .halted }).answer ⟨0x91, n, []⟩ .ok
          (put1 2 ++ put4 s.clock.seconds ++ put1 s.clock.tenths))) ∧
    (s.phase = .halted → s.hasTurn ⟨0x92, n, []⟩ →
      exec (.resume n []) s =
        .next (({ s.popRequest with phase := .running }).tellDispatcher.answer ⟨0x92, n, []⟩ .ok
          (put1 1 ++ put4 s.clock.seconds ++ put1 s.clock.tenths)))

/-- R183, R6, R87: outside LOADING and with no transfer running, a tenth of a second moves the clock by one tenth; the
tenth that completes a second raises the seconds, from 4,294,967,295 back to 0, and the age of every live record, up to
65535, and leaves DONE records. The stall timer of every OPEN group with a live member rises by one, up to 65535; a CLOSED
group, and the timer of one without members, stands still. A group with a stall limit other than 0 whose timer then stands
at its limit has its stall reported flag set, and SEQ_STALL is raised when the flag was clear (a timer beyond its limit is
assumption 22). In LOADING the clock stands still. The car job timer, stopped here, would count the same tenth (assumption
9). -/
def Obligations.ClockTicks : Prop :=
  ∀ s u : State,
    (s.phase = .loading → exec .dispatchClockTick s = .next s) ∧
    (s.Settled → s.phase ≠ .loading → s.car.jobTimer = none → s.clock.tenths < 9 →
      Completes .dispatchClockTick s { s with clock := { s.clock with tenths := s.clock.tenths + 1 } }) ∧
    (s.Settled → s.phase ≠ .loading → s.car.jobTimer = none → s.clock.tenths = 9 →
      u = { s with
        clock := ⟨if s.clock.seconds < 4294967295 then s.clock.seconds + 1 else 0, 0⟩
        jobs := s.jobs.map (fun e =>
          (e.1, if e.2.state = .done then e.2 else { e.2 with age := min 65535 (e.2.age + 1) }))
        groups := s.groups.map Group.secondLater } →
      ((∀ g, (s.group g).stallsNext = false) → Completes .dispatchClockTick s u) ∧
      ((∃ g, (s.group g).stallsNext = true) → Completes .dispatchClockTick s (u.raise .seqStall)))
end

