-- ==== Sys2Proof/Laws/State.lean ====
section
/-! SUPPORT. One lemma for each field under each update of the state, so that no proof unfolds a record update. -/

namespace Sys2Proof.Machine

/-! ## setLine -/

@[simp] theorem State.setLine_pending (s : State) (c : Fin 8) (l : Line) : (s.setLine c l).pending = s.pending := rfl

@[simp] theorem State.setLine_phase (s : State) (c : Fin 8) (l : Line) : (s.setLine c l).phase = s.phase := rfl

@[simp] theorem State.setLine_clock (s : State) (c : Fin 8) (l : Line) : (s.setLine c l).clock = s.clock := rfl

@[simp] theorem State.setLine_resetDue (s : State) (c : Fin 8) (l : Line) : (s.setLine c l).resetDue = s.resetDue := rfl

@[simp] theorem State.setLine_host (s : State) (c : Fin 8) (l : Line) : (s.setLine c l).host = s.host := rfl

@[simp] theorem State.setLine_jobs (s : State) (c : Fin 8) (l : Line) : (s.setLine c l).jobs = s.jobs := rfl

@[simp] theorem State.setLine_done (s : State) (c : Fin 8) (l : Line) : (s.setLine c l).done = s.done := rfl

@[simp] theorem State.setLine_freeCount (s : State) (c : Fin 8) (l : Line) : (s.setLine c l).freeCount = s.freeCount := rfl

@[simp] theorem State.setLine_aisles (s : State) (c : Fin 8) (l : Line) : (s.setLine c l).aisles = s.aisles := rfl

@[simp] theorem State.setLine_slots (s : State) (c : Fin 8) (l : Line) : (s.setLine c l).slots = s.slots := rfl

@[simp] theorem State.setLine_disp (s : State) (c : Fin 8) (l : Line) : (s.setLine c l).disp = s.disp := rfl

@[simp] theorem State.setLine_groups (s : State) (c : Fin 8) (l : Line) : (s.setLine c l).groups = s.groups := rfl

@[simp] theorem State.setLine_car (s : State) (c : Fin 8) (l : Line) : (s.setLine c l).car = s.car := rfl

@[simp] theorem State.setLine_settings (s : State) (c : Fin 8) (l : Line) : (s.setLine c l).settings = s.settings := rfl

@[simp] theorem State.setLine_scratch (s : State) (c : Fin 8) (l : Line) : (s.setLine c l).scratch = s.scratch := rfl

/-! ## updateLine -/

@[simp] theorem State.updateLine_pending (s : State) (c : Fin 8) (f : Line → Line) : (s.updateLine c f).pending = s.pending := rfl

@[simp] theorem State.updateLine_phase (s : State) (c : Fin 8) (f : Line → Line) : (s.updateLine c f).phase = s.phase := rfl

@[simp] theorem State.updateLine_clock (s : State) (c : Fin 8) (f : Line → Line) : (s.updateLine c f).clock = s.clock := rfl

@[simp] theorem State.updateLine_resetDue (s : State) (c : Fin 8) (f : Line → Line) : (s.updateLine c f).resetDue = s.resetDue := rfl

@[simp] theorem State.updateLine_host (s : State) (c : Fin 8) (f : Line → Line) : (s.updateLine c f).host = s.host := rfl

@[simp] theorem State.updateLine_jobs (s : State) (c : Fin 8) (f : Line → Line) : (s.updateLine c f).jobs = s.jobs := rfl

@[simp] theorem State.updateLine_done (s : State) (c : Fin 8) (f : Line → Line) : (s.updateLine c f).done = s.done := rfl

@[simp] theorem State.updateLine_freeCount (s : State) (c : Fin 8) (f : Line → Line) : (s.updateLine c f).freeCount = s.freeCount := rfl

@[simp] theorem State.updateLine_aisles (s : State) (c : Fin 8) (f : Line → Line) : (s.updateLine c f).aisles = s.aisles := rfl

@[simp] theorem State.updateLine_slots (s : State) (c : Fin 8) (f : Line → Line) : (s.updateLine c f).slots = s.slots := rfl

@[simp] theorem State.updateLine_disp (s : State) (c : Fin 8) (f : Line → Line) : (s.updateLine c f).disp = s.disp := rfl

@[simp] theorem State.updateLine_groups (s : State) (c : Fin 8) (f : Line → Line) : (s.updateLine c f).groups = s.groups := rfl

@[simp] theorem State.updateLine_car (s : State) (c : Fin 8) (f : Line → Line) : (s.updateLine c f).car = s.car := rfl

@[simp] theorem State.updateLine_settings (s : State) (c : Fin 8) (f : Line → Line) : (s.updateLine c f).settings = s.settings := rfl

@[simp] theorem State.updateLine_scratch (s : State) (c : Fin 8) (f : Line → Line) : (s.updateLine c f).scratch = s.scratch := rfl

/-! ## updateCtx -/

@[simp] theorem State.updateCtx_pending (s : State) (c : Fin 8) (f : Context → Context) : (s.updateCtx c f).pending = s.pending := rfl

@[simp] theorem State.updateCtx_phase (s : State) (c : Fin 8) (f : Context → Context) : (s.updateCtx c f).phase = s.phase := rfl

@[simp] theorem State.updateCtx_clock (s : State) (c : Fin 8) (f : Context → Context) : (s.updateCtx c f).clock = s.clock := rfl

@[simp] theorem State.updateCtx_resetDue (s : State) (c : Fin 8) (f : Context → Context) : (s.updateCtx c f).resetDue = s.resetDue := rfl

@[simp] theorem State.updateCtx_host (s : State) (c : Fin 8) (f : Context → Context) : (s.updateCtx c f).host = s.host := rfl

@[simp] theorem State.updateCtx_jobs (s : State) (c : Fin 8) (f : Context → Context) : (s.updateCtx c f).jobs = s.jobs := rfl

@[simp] theorem State.updateCtx_done (s : State) (c : Fin 8) (f : Context → Context) : (s.updateCtx c f).done = s.done := rfl

@[simp] theorem State.updateCtx_freeCount (s : State) (c : Fin 8) (f : Context → Context) : (s.updateCtx c f).freeCount = s.freeCount := rfl

@[simp] theorem State.updateCtx_aisles (s : State) (c : Fin 8) (f : Context → Context) : (s.updateCtx c f).aisles = s.aisles := rfl

@[simp] theorem State.updateCtx_slots (s : State) (c : Fin 8) (f : Context → Context) : (s.updateCtx c f).slots = s.slots := rfl

@[simp] theorem State.updateCtx_disp (s : State) (c : Fin 8) (f : Context → Context) : (s.updateCtx c f).disp = s.disp := rfl

@[simp] theorem State.updateCtx_groups (s : State) (c : Fin 8) (f : Context → Context) : (s.updateCtx c f).groups = s.groups := rfl

@[simp] theorem State.updateCtx_car (s : State) (c : Fin 8) (f : Context → Context) : (s.updateCtx c f).car = s.car := rfl

@[simp] theorem State.updateCtx_settings (s : State) (c : Fin 8) (f : Context → Context) : (s.updateCtx c f).settings = s.settings := rfl

@[simp] theorem State.updateCtx_scratch (s : State) (c : Fin 8) (f : Context → Context) : (s.updateCtx c f).scratch = s.scratch := rfl

/-! ## setAisle -/

@[simp] theorem State.setAisle_pending (s : State) (a : Fin 16) (r : Aisle) : (s.setAisle a r).pending = s.pending := rfl

@[simp] theorem State.setAisle_phase (s : State) (a : Fin 16) (r : Aisle) : (s.setAisle a r).phase = s.phase := rfl

@[simp] theorem State.setAisle_clock (s : State) (a : Fin 16) (r : Aisle) : (s.setAisle a r).clock = s.clock := rfl

@[simp] theorem State.setAisle_resetDue (s : State) (a : Fin 16) (r : Aisle) : (s.setAisle a r).resetDue = s.resetDue := rfl

@[simp] theorem State.setAisle_host (s : State) (a : Fin 16) (r : Aisle) : (s.setAisle a r).host = s.host := rfl

@[simp] theorem State.setAisle_jobs (s : State) (a : Fin 16) (r : Aisle) : (s.setAisle a r).jobs = s.jobs := rfl

@[simp] theorem State.setAisle_done (s : State) (a : Fin 16) (r : Aisle) : (s.setAisle a r).done = s.done := rfl

@[simp] theorem State.setAisle_freeCount (s : State) (a : Fin 16) (r : Aisle) : (s.setAisle a r).freeCount = s.freeCount := rfl

@[simp] theorem State.setAisle_slots (s : State) (a : Fin 16) (r : Aisle) : (s.setAisle a r).slots = s.slots := rfl

@[simp] theorem State.setAisle_disp (s : State) (a : Fin 16) (r : Aisle) : (s.setAisle a r).disp = s.disp := rfl

@[simp] theorem State.setAisle_groups (s : State) (a : Fin 16) (r : Aisle) : (s.setAisle a r).groups = s.groups := rfl

@[simp] theorem State.setAisle_car (s : State) (a : Fin 16) (r : Aisle) : (s.setAisle a r).car = s.car := rfl

@[simp] theorem State.setAisle_lines (s : State) (a : Fin 16) (r : Aisle) : (s.setAisle a r).lines = s.lines := rfl

@[simp] theorem State.setAisle_settings (s : State) (a : Fin 16) (r : Aisle) : (s.setAisle a r).settings = s.settings := rfl

@[simp] theorem State.setAisle_scratch (s : State) (a : Fin 16) (r : Aisle) : (s.setAisle a r).scratch = s.scratch := rfl

/-! ## setLock -/

@[simp] theorem State.setLock_pending (s : State) (a : Fin 16) (h : Option (Fin 8)) : (s.setLock a h).pending = s.pending := rfl

@[simp] theorem State.setLock_phase (s : State) (a : Fin 16) (h : Option (Fin 8)) : (s.setLock a h).phase = s.phase := rfl

@[simp] theorem State.setLock_clock (s : State) (a : Fin 16) (h : Option (Fin 8)) : (s.setLock a h).clock = s.clock := rfl

@[simp] theorem State.setLock_resetDue (s : State) (a : Fin 16) (h : Option (Fin 8)) : (s.setLock a h).resetDue = s.resetDue := rfl

@[simp] theorem State.setLock_host (s : State) (a : Fin 16) (h : Option (Fin 8)) : (s.setLock a h).host = s.host := rfl

@[simp] theorem State.setLock_jobs (s : State) (a : Fin 16) (h : Option (Fin 8)) : (s.setLock a h).jobs = s.jobs := rfl

@[simp] theorem State.setLock_done (s : State) (a : Fin 16) (h : Option (Fin 8)) : (s.setLock a h).done = s.done := rfl

@[simp] theorem State.setLock_freeCount (s : State) (a : Fin 16) (h : Option (Fin 8)) : (s.setLock a h).freeCount = s.freeCount := rfl

@[simp] theorem State.setLock_slots (s : State) (a : Fin 16) (h : Option (Fin 8)) : (s.setLock a h).slots = s.slots := rfl

@[simp] theorem State.setLock_disp (s : State) (a : Fin 16) (h : Option (Fin 8)) : (s.setLock a h).disp = s.disp := rfl

@[simp] theorem State.setLock_groups (s : State) (a : Fin 16) (h : Option (Fin 8)) : (s.setLock a h).groups = s.groups := rfl

@[simp] theorem State.setLock_car (s : State) (a : Fin 16) (h : Option (Fin 8)) : (s.setLock a h).car = s.car := rfl

@[simp] theorem State.setLock_lines (s : State) (a : Fin 16) (h : Option (Fin 8)) : (s.setLock a h).lines = s.lines := rfl

@[simp] theorem State.setLock_settings (s : State) (a : Fin 16) (h : Option (Fin 8)) : (s.setLock a h).settings = s.settings := rfl

@[simp] theorem State.setLock_scratch (s : State) (a : Fin 16) (h : Option (Fin 8)) : (s.setLock a h).scratch = s.scratch := rfl

/-! ## setGroup -/

@[simp] theorem State.setGroup_pending (s : State) (g : Fin 16) (r : Group) : (s.setGroup g r).pending = s.pending := rfl

@[simp] theorem State.setGroup_phase (s : State) (g : Fin 16) (r : Group) : (s.setGroup g r).phase = s.phase := rfl

@[simp] theorem State.setGroup_clock (s : State) (g : Fin 16) (r : Group) : (s.setGroup g r).clock = s.clock := rfl

@[simp] theorem State.setGroup_resetDue (s : State) (g : Fin 16) (r : Group) : (s.setGroup g r).resetDue = s.resetDue := rfl

@[simp] theorem State.setGroup_host (s : State) (g : Fin 16) (r : Group) : (s.setGroup g r).host = s.host := rfl

@[simp] theorem State.setGroup_jobs (s : State) (g : Fin 16) (r : Group) : (s.setGroup g r).jobs = s.jobs := rfl

@[simp] theorem State.setGroup_done (s : State) (g : Fin 16) (r : Group) : (s.setGroup g r).done = s.done := rfl

@[simp] theorem State.setGroup_freeCount (s : State) (g : Fin 16) (r : Group) : (s.setGroup g r).freeCount = s.freeCount := rfl

@[simp] theorem State.setGroup_aisles (s : State) (g : Fin 16) (r : Group) : (s.setGroup g r).aisles = s.aisles := rfl

@[simp] theorem State.setGroup_slots (s : State) (g : Fin 16) (r : Group) : (s.setGroup g r).slots = s.slots := rfl

@[simp] theorem State.setGroup_disp (s : State) (g : Fin 16) (r : Group) : (s.setGroup g r).disp = s.disp := rfl

@[simp] theorem State.setGroup_car (s : State) (g : Fin 16) (r : Group) : (s.setGroup g r).car = s.car := rfl

@[simp] theorem State.setGroup_lines (s : State) (g : Fin 16) (r : Group) : (s.setGroup g r).lines = s.lines := rfl

@[simp] theorem State.setGroup_settings (s : State) (g : Fin 16) (r : Group) : (s.setGroup g r).settings = s.settings := rfl

@[simp] theorem State.setGroup_scratch (s : State) (g : Fin 16) (r : Group) : (s.setGroup g r).scratch = s.scratch := rfl

/-! ## tellDispatcher -/

@[simp] theorem State.tellDispatcher_pending (s : State) : (s.tellDispatcher).pending = s.pending := rfl

@[simp] theorem State.tellDispatcher_phase (s : State) : (s.tellDispatcher).phase = s.phase := rfl

@[simp] theorem State.tellDispatcher_clock (s : State) : (s.tellDispatcher).clock = s.clock := rfl

@[simp] theorem State.tellDispatcher_resetDue (s : State) : (s.tellDispatcher).resetDue = s.resetDue := rfl

@[simp] theorem State.tellDispatcher_host (s : State) : (s.tellDispatcher).host = s.host := rfl

@[simp] theorem State.tellDispatcher_jobs (s : State) : (s.tellDispatcher).jobs = s.jobs := rfl

@[simp] theorem State.tellDispatcher_done (s : State) : (s.tellDispatcher).done = s.done := rfl

@[simp] theorem State.tellDispatcher_freeCount (s : State) : (s.tellDispatcher).freeCount = s.freeCount := rfl

@[simp] theorem State.tellDispatcher_aisles (s : State) : (s.tellDispatcher).aisles = s.aisles := rfl

@[simp] theorem State.tellDispatcher_slots (s : State) : (s.tellDispatcher).slots = s.slots := rfl

@[simp] theorem State.tellDispatcher_groups (s : State) : (s.tellDispatcher).groups = s.groups := rfl

@[simp] theorem State.tellDispatcher_car (s : State) : (s.tellDispatcher).car = s.car := rfl

@[simp] theorem State.tellDispatcher_lines (s : State) : (s.tellDispatcher).lines = s.lines := rfl

@[simp] theorem State.tellDispatcher_settings (s : State) : (s.tellDispatcher).settings = s.settings := rfl

@[simp] theorem State.tellDispatcher_scratch (s : State) : (s.tellDispatcher).scratch = s.scratch := rfl

/-! ## noteInput -/

@[simp] theorem State.noteInput_pending (s : State) (c : Fin 8) (n : Nat) : (s.noteInput c n).pending = s.pending := rfl

@[simp] theorem State.noteInput_phase (s : State) (c : Fin 8) (n : Nat) : (s.noteInput c n).phase = s.phase := rfl

@[simp] theorem State.noteInput_clock (s : State) (c : Fin 8) (n : Nat) : (s.noteInput c n).clock = s.clock := rfl

@[simp] theorem State.noteInput_resetDue (s : State) (c : Fin 8) (n : Nat) : (s.noteInput c n).resetDue = s.resetDue := rfl

@[simp] theorem State.noteInput_host (s : State) (c : Fin 8) (n : Nat) : (s.noteInput c n).host = s.host := rfl

@[simp] theorem State.noteInput_jobs (s : State) (c : Fin 8) (n : Nat) : (s.noteInput c n).jobs = s.jobs := rfl

@[simp] theorem State.noteInput_done (s : State) (c : Fin 8) (n : Nat) : (s.noteInput c n).done = s.done := rfl

@[simp] theorem State.noteInput_freeCount (s : State) (c : Fin 8) (n : Nat) : (s.noteInput c n).freeCount = s.freeCount := rfl

@[simp] theorem State.noteInput_aisles (s : State) (c : Fin 8) (n : Nat) : (s.noteInput c n).aisles = s.aisles := rfl

@[simp] theorem State.noteInput_slots (s : State) (c : Fin 8) (n : Nat) : (s.noteInput c n).slots = s.slots := rfl

@[simp] theorem State.noteInput_disp (s : State) (c : Fin 8) (n : Nat) : (s.noteInput c n).disp = s.disp := rfl

@[simp] theorem State.noteInput_groups (s : State) (c : Fin 8) (n : Nat) : (s.noteInput c n).groups = s.groups := rfl

@[simp] theorem State.noteInput_car (s : State) (c : Fin 8) (n : Nat) : (s.noteInput c n).car = s.car := rfl

@[simp] theorem State.noteInput_lines (s : State) (c : Fin 8) (n : Nat) : (s.noteInput c n).lines = s.lines := rfl

@[simp] theorem State.noteInput_settings (s : State) (c : Fin 8) (n : Nat) : (s.noteInput c n).settings = s.settings := rfl

/-! ## noteLine -/

@[simp] theorem State.noteLine_pending (s : State) (c : Fin 8) : (s.noteLine c).pending = s.pending := rfl

@[simp] theorem State.noteLine_phase (s : State) (c : Fin 8) : (s.noteLine c).phase = s.phase := rfl

@[simp] theorem State.noteLine_clock (s : State) (c : Fin 8) : (s.noteLine c).clock = s.clock := rfl

@[simp] theorem State.noteLine_resetDue (s : State) (c : Fin 8) : (s.noteLine c).resetDue = s.resetDue := rfl

@[simp] theorem State.noteLine_host (s : State) (c : Fin 8) : (s.noteLine c).host = s.host := rfl

@[simp] theorem State.noteLine_jobs (s : State) (c : Fin 8) : (s.noteLine c).jobs = s.jobs := rfl

@[simp] theorem State.noteLine_done (s : State) (c : Fin 8) : (s.noteLine c).done = s.done := rfl

@[simp] theorem State.noteLine_freeCount (s : State) (c : Fin 8) : (s.noteLine c).freeCount = s.freeCount := rfl

@[simp] theorem State.noteLine_aisles (s : State) (c : Fin 8) : (s.noteLine c).aisles = s.aisles := rfl

@[simp] theorem State.noteLine_slots (s : State) (c : Fin 8) : (s.noteLine c).slots = s.slots := rfl

@[simp] theorem State.noteLine_disp (s : State) (c : Fin 8) : (s.noteLine c).disp = s.disp := rfl

@[simp] theorem State.noteLine_groups (s : State) (c : Fin 8) : (s.noteLine c).groups = s.groups := rfl

@[simp] theorem State.noteLine_car (s : State) (c : Fin 8) : (s.noteLine c).car = s.car := rfl

@[simp] theorem State.noteLine_lines (s : State) (c : Fin 8) : (s.noteLine c).lines = s.lines := rfl

@[simp] theorem State.noteLine_settings (s : State) (c : Fin 8) : (s.noteLine c).settings = s.settings := rfl

/-! ## noteOwn -/

@[simp] theorem State.noteOwn_pending (s : State) (i : Nat) : (s.noteOwn i).pending = s.pending := rfl

@[simp] theorem State.noteOwn_phase (s : State) (i : Nat) : (s.noteOwn i).phase = s.phase := rfl

@[simp] theorem State.noteOwn_clock (s : State) (i : Nat) : (s.noteOwn i).clock = s.clock := rfl

@[simp] theorem State.noteOwn_resetDue (s : State) (i : Nat) : (s.noteOwn i).resetDue = s.resetDue := rfl

@[simp] theorem State.noteOwn_host (s : State) (i : Nat) : (s.noteOwn i).host = s.host := rfl

@[simp] theorem State.noteOwn_jobs (s : State) (i : Nat) : (s.noteOwn i).jobs = s.jobs := rfl

@[simp] theorem State.noteOwn_done (s : State) (i : Nat) : (s.noteOwn i).done = s.done := rfl

@[simp] theorem State.noteOwn_freeCount (s : State) (i : Nat) : (s.noteOwn i).freeCount = s.freeCount := rfl

@[simp] theorem State.noteOwn_aisles (s : State) (i : Nat) : (s.noteOwn i).aisles = s.aisles := rfl

@[simp] theorem State.noteOwn_slots (s : State) (i : Nat) : (s.noteOwn i).slots = s.slots := rfl

@[simp] theorem State.noteOwn_disp (s : State) (i : Nat) : (s.noteOwn i).disp = s.disp := rfl

@[simp] theorem State.noteOwn_groups (s : State) (i : Nat) : (s.noteOwn i).groups = s.groups := rfl

@[simp] theorem State.noteOwn_car (s : State) (i : Nat) : (s.noteOwn i).car = s.car := rfl

@[simp] theorem State.noteOwn_lines (s : State) (i : Nat) : (s.noteOwn i).lines = s.lines := rfl

@[simp] theorem State.noteOwn_settings (s : State) (i : Nat) : (s.noteOwn i).settings = s.settings := rfl

/-! ## collect -/

@[simp] theorem State.collect_pending (s : State) (js : List Nat) : (s.collect js).pending = s.pending := rfl

@[simp] theorem State.collect_phase (s : State) (js : List Nat) : (s.collect js).phase = s.phase := rfl

@[simp] theorem State.collect_clock (s : State) (js : List Nat) : (s.collect js).clock = s.clock := rfl

@[simp] theorem State.collect_resetDue (s : State) (js : List Nat) : (s.collect js).resetDue = s.resetDue := rfl

@[simp] theorem State.collect_host (s : State) (js : List Nat) : (s.collect js).host = s.host := rfl

@[simp] theorem State.collect_jobs (s : State) (js : List Nat) : (s.collect js).jobs = s.jobs := rfl

@[simp] theorem State.collect_done (s : State) (js : List Nat) : (s.collect js).done = s.done := rfl

@[simp] theorem State.collect_freeCount (s : State) (js : List Nat) : (s.collect js).freeCount = s.freeCount := rfl

@[simp] theorem State.collect_aisles (s : State) (js : List Nat) : (s.collect js).aisles = s.aisles := rfl

@[simp] theorem State.collect_slots (s : State) (js : List Nat) : (s.collect js).slots = s.slots := rfl

@[simp] theorem State.collect_disp (s : State) (js : List Nat) : (s.collect js).disp = s.disp := rfl

@[simp] theorem State.collect_groups (s : State) (js : List Nat) : (s.collect js).groups = s.groups := rfl

@[simp] theorem State.collect_car (s : State) (js : List Nat) : (s.collect js).car = s.car := rfl

@[simp] theorem State.collect_lines (s : State) (js : List Nat) : (s.collect js).lines = s.lines := rfl

@[simp] theorem State.collect_settings (s : State) (js : List Nat) : (s.collect js).settings = s.settings := rfl

/-! ## setJob -/

@[simp] theorem State.setJob_pending (s : State) (i : Nat) (j : Job) : (s.setJob i j).pending = s.pending := rfl

@[simp] theorem State.setJob_phase (s : State) (i : Nat) (j : Job) : (s.setJob i j).phase = s.phase := rfl

@[simp] theorem State.setJob_clock (s : State) (i : Nat) (j : Job) : (s.setJob i j).clock = s.clock := rfl

@[simp] theorem State.setJob_resetDue (s : State) (i : Nat) (j : Job) : (s.setJob i j).resetDue = s.resetDue := rfl

@[simp] theorem State.setJob_host (s : State) (i : Nat) (j : Job) : (s.setJob i j).host = s.host := rfl

@[simp] theorem State.setJob_done (s : State) (i : Nat) (j : Job) : (s.setJob i j).done = s.done := rfl

@[simp] theorem State.setJob_freeCount (s : State) (i : Nat) (j : Job) : (s.setJob i j).freeCount = s.freeCount := rfl

@[simp] theorem State.setJob_aisles (s : State) (i : Nat) (j : Job) : (s.setJob i j).aisles = s.aisles := rfl

@[simp] theorem State.setJob_slots (s : State) (i : Nat) (j : Job) : (s.setJob i j).slots = s.slots := rfl

@[simp] theorem State.setJob_disp (s : State) (i : Nat) (j : Job) : (s.setJob i j).disp = s.disp := rfl

@[simp] theorem State.setJob_groups (s : State) (i : Nat) (j : Job) : (s.setJob i j).groups = s.groups := rfl

@[simp] theorem State.setJob_car (s : State) (i : Nat) (j : Job) : (s.setJob i j).car = s.car := rfl

@[simp] theorem State.setJob_lines (s : State) (i : Nat) (j : Job) : (s.setJob i j).lines = s.lines := rfl

@[simp] theorem State.setJob_settings (s : State) (i : Nat) (j : Job) : (s.setJob i j).settings = s.settings := rfl

@[simp] theorem State.setJob_scratch (s : State) (i : Nat) (j : Job) : (s.setJob i j).scratch = s.scratch := rfl

/-! ## takeRecord -/

@[simp] theorem State.takeRecord_pending (s : State) (i : Nat) (j : Job) : (s.takeRecord i j).pending = s.pending := rfl

@[simp] theorem State.takeRecord_phase (s : State) (i : Nat) (j : Job) : (s.takeRecord i j).phase = s.phase := rfl

@[simp] theorem State.takeRecord_clock (s : State) (i : Nat) (j : Job) : (s.takeRecord i j).clock = s.clock := rfl

@[simp] theorem State.takeRecord_resetDue (s : State) (i : Nat) (j : Job) : (s.takeRecord i j).resetDue = s.resetDue := rfl

@[simp] theorem State.takeRecord_host (s : State) (i : Nat) (j : Job) : (s.takeRecord i j).host = s.host := rfl

@[simp] theorem State.takeRecord_done (s : State) (i : Nat) (j : Job) : (s.takeRecord i j).done = s.done := rfl

@[simp] theorem State.takeRecord_aisles (s : State) (i : Nat) (j : Job) : (s.takeRecord i j).aisles = s.aisles := rfl

@[simp] theorem State.takeRecord_slots (s : State) (i : Nat) (j : Job) : (s.takeRecord i j).slots = s.slots := rfl

@[simp] theorem State.takeRecord_disp (s : State) (i : Nat) (j : Job) : (s.takeRecord i j).disp = s.disp := rfl

@[simp] theorem State.takeRecord_groups (s : State) (i : Nat) (j : Job) : (s.takeRecord i j).groups = s.groups := rfl

@[simp] theorem State.takeRecord_car (s : State) (i : Nat) (j : Job) : (s.takeRecord i j).car = s.car := rfl

@[simp] theorem State.takeRecord_lines (s : State) (i : Nat) (j : Job) : (s.takeRecord i j).lines = s.lines := rfl

@[simp] theorem State.takeRecord_settings (s : State) (i : Nat) (j : Job) : (s.takeRecord i j).settings = s.settings := rfl

@[simp] theorem State.takeRecord_scratch (s : State) (i : Nat) (j : Job) : (s.takeRecord i j).scratch = s.scratch := rfl

/-! ## putSlot -/

@[simp] theorem State.putSlot_pending (s : State) (a : Fin 16) (p : SlotPos) (r : Slot) : (s.putSlot a p r).pending = s.pending := rfl

@[simp] theorem State.putSlot_phase (s : State) (a : Fin 16) (p : SlotPos) (r : Slot) : (s.putSlot a p r).phase = s.phase := rfl

@[simp] theorem State.putSlot_clock (s : State) (a : Fin 16) (p : SlotPos) (r : Slot) : (s.putSlot a p r).clock = s.clock := rfl

@[simp] theorem State.putSlot_resetDue (s : State) (a : Fin 16) (p : SlotPos) (r : Slot) : (s.putSlot a p r).resetDue = s.resetDue := rfl

@[simp] theorem State.putSlot_host (s : State) (a : Fin 16) (p : SlotPos) (r : Slot) : (s.putSlot a p r).host = s.host := rfl

@[simp] theorem State.putSlot_jobs (s : State) (a : Fin 16) (p : SlotPos) (r : Slot) : (s.putSlot a p r).jobs = s.jobs := rfl

@[simp] theorem State.putSlot_done (s : State) (a : Fin 16) (p : SlotPos) (r : Slot) : (s.putSlot a p r).done = s.done := rfl

@[simp] theorem State.putSlot_freeCount (s : State) (a : Fin 16) (p : SlotPos) (r : Slot) : (s.putSlot a p r).freeCount = s.freeCount := rfl

@[simp] theorem State.putSlot_disp (s : State) (a : Fin 16) (p : SlotPos) (r : Slot) : (s.putSlot a p r).disp = s.disp := rfl

@[simp] theorem State.putSlot_groups (s : State) (a : Fin 16) (p : SlotPos) (r : Slot) : (s.putSlot a p r).groups = s.groups := rfl

@[simp] theorem State.putSlot_car (s : State) (a : Fin 16) (p : SlotPos) (r : Slot) : (s.putSlot a p r).car = s.car := rfl

@[simp] theorem State.putSlot_lines (s : State) (a : Fin 16) (p : SlotPos) (r : Slot) : (s.putSlot a p r).lines = s.lines := rfl

@[simp] theorem State.putSlot_settings (s : State) (a : Fin 16) (p : SlotPos) (r : Slot) : (s.putSlot a p r).settings = s.settings := rfl

@[simp] theorem State.putSlot_scratch (s : State) (a : Fin 16) (p : SlotPos) (r : Slot) : (s.putSlot a p r).scratch = s.scratch := rfl

/-! ## joinGroup -/

@[simp] theorem State.joinGroup_pending (s : State) (g : Fin 16) : (s.joinGroup g).pending = s.pending := rfl

@[simp] theorem State.joinGroup_phase (s : State) (g : Fin 16) : (s.joinGroup g).phase = s.phase := rfl

@[simp] theorem State.joinGroup_clock (s : State) (g : Fin 16) : (s.joinGroup g).clock = s.clock := rfl

@[simp] theorem State.joinGroup_resetDue (s : State) (g : Fin 16) : (s.joinGroup g).resetDue = s.resetDue := rfl

@[simp] theorem State.joinGroup_host (s : State) (g : Fin 16) : (s.joinGroup g).host = s.host := rfl

@[simp] theorem State.joinGroup_jobs (s : State) (g : Fin 16) : (s.joinGroup g).jobs = s.jobs := rfl

@[simp] theorem State.joinGroup_done (s : State) (g : Fin 16) : (s.joinGroup g).done = s.done := rfl

@[simp] theorem State.joinGroup_freeCount (s : State) (g : Fin 16) : (s.joinGroup g).freeCount = s.freeCount := rfl

@[simp] theorem State.joinGroup_aisles (s : State) (g : Fin 16) : (s.joinGroup g).aisles = s.aisles := rfl

@[simp] theorem State.joinGroup_slots (s : State) (g : Fin 16) : (s.joinGroup g).slots = s.slots := rfl

@[simp] theorem State.joinGroup_disp (s : State) (g : Fin 16) : (s.joinGroup g).disp = s.disp := rfl

@[simp] theorem State.joinGroup_car (s : State) (g : Fin 16) : (s.joinGroup g).car = s.car := rfl

@[simp] theorem State.joinGroup_lines (s : State) (g : Fin 16) : (s.joinGroup g).lines = s.lines := rfl

@[simp] theorem State.joinGroup_settings (s : State) (g : Fin 16) : (s.joinGroup g).settings = s.settings := rfl

@[simp] theorem State.joinGroup_scratch (s : State) (g : Fin 16) : (s.joinGroup g).scratch = s.scratch := rfl

/-! ## raise -/

@[simp] theorem State.raise_pending (s : State) (x : Alert) : (s.raise x).pending = s.pending := rfl

@[simp] theorem State.raise_phase (s : State) (x : Alert) : (s.raise x).phase = s.phase := rfl

@[simp] theorem State.raise_clock (s : State) (x : Alert) : (s.raise x).clock = s.clock := rfl

@[simp] theorem State.raise_resetDue (s : State) (x : Alert) : (s.raise x).resetDue = s.resetDue := rfl

@[simp] theorem State.raise_jobs (s : State) (x : Alert) : (s.raise x).jobs = s.jobs := rfl

@[simp] theorem State.raise_done (s : State) (x : Alert) : (s.raise x).done = s.done := rfl

@[simp] theorem State.raise_freeCount (s : State) (x : Alert) : (s.raise x).freeCount = s.freeCount := rfl

@[simp] theorem State.raise_aisles (s : State) (x : Alert) : (s.raise x).aisles = s.aisles := rfl

@[simp] theorem State.raise_slots (s : State) (x : Alert) : (s.raise x).slots = s.slots := rfl

@[simp] theorem State.raise_disp (s : State) (x : Alert) : (s.raise x).disp = s.disp := rfl

@[simp] theorem State.raise_groups (s : State) (x : Alert) : (s.raise x).groups = s.groups := rfl

@[simp] theorem State.raise_car (s : State) (x : Alert) : (s.raise x).car = s.car := rfl

@[simp] theorem State.raise_lines (s : State) (x : Alert) : (s.raise x).lines = s.lines := rfl

@[simp] theorem State.raise_settings (s : State) (x : Alert) : (s.raise x).settings = s.settings := rfl

@[simp] theorem State.raise_scratch (s : State) (x : Alert) : (s.raise x).scratch = s.scratch := rfl

/-! ## takeConditions -/

@[simp] theorem State.takeConditions_pending (s : State) : (s.takeConditions).pending = s.pending := rfl

@[simp] theorem State.takeConditions_phase (s : State) : (s.takeConditions).phase = s.phase := rfl

@[simp] theorem State.takeConditions_clock (s : State) : (s.takeConditions).clock = s.clock := rfl

@[simp] theorem State.takeConditions_resetDue (s : State) : (s.takeConditions).resetDue = s.resetDue := rfl

@[simp] theorem State.takeConditions_jobs (s : State) : (s.takeConditions).jobs = s.jobs := rfl

@[simp] theorem State.takeConditions_done (s : State) : (s.takeConditions).done = s.done := rfl

@[simp] theorem State.takeConditions_freeCount (s : State) : (s.takeConditions).freeCount = s.freeCount := rfl

@[simp] theorem State.takeConditions_aisles (s : State) : (s.takeConditions).aisles = s.aisles := rfl

@[simp] theorem State.takeConditions_slots (s : State) : (s.takeConditions).slots = s.slots := rfl

@[simp] theorem State.takeConditions_disp (s : State) : (s.takeConditions).disp = s.disp := rfl

@[simp] theorem State.takeConditions_groups (s : State) : (s.takeConditions).groups = s.groups := rfl

@[simp] theorem State.takeConditions_car (s : State) : (s.takeConditions).car = s.car := rfl

@[simp] theorem State.takeConditions_lines (s : State) : (s.takeConditions).lines = s.lines := rfl

@[simp] theorem State.takeConditions_settings (s : State) : (s.takeConditions).settings = s.settings := rfl

@[simp] theorem State.takeConditions_scratch (s : State) : (s.takeConditions).scratch = s.scratch := rfl

/-! ## updateCar -/

@[simp] theorem State.updateCar_pending (s : State) (f : Car → Car) : (s.updateCar f).pending = s.pending := rfl

@[simp] theorem State.updateCar_phase (s : State) (f : Car → Car) : (s.updateCar f).phase = s.phase := rfl

@[simp] theorem State.updateCar_clock (s : State) (f : Car → Car) : (s.updateCar f).clock = s.clock := rfl

@[simp] theorem State.updateCar_resetDue (s : State) (f : Car → Car) : (s.updateCar f).resetDue = s.resetDue := rfl

@[simp] theorem State.updateCar_host (s : State) (f : Car → Car) : (s.updateCar f).host = s.host := rfl

@[simp] theorem State.updateCar_jobs (s : State) (f : Car → Car) : (s.updateCar f).jobs = s.jobs := rfl

@[simp] theorem State.updateCar_done (s : State) (f : Car → Car) : (s.updateCar f).done = s.done := rfl

@[simp] theorem State.updateCar_freeCount (s : State) (f : Car → Car) : (s.updateCar f).freeCount = s.freeCount := rfl

@[simp] theorem State.updateCar_aisles (s : State) (f : Car → Car) : (s.updateCar f).aisles = s.aisles := rfl

@[simp] theorem State.updateCar_slots (s : State) (f : Car → Car) : (s.updateCar f).slots = s.slots := rfl

@[simp] theorem State.updateCar_disp (s : State) (f : Car → Car) : (s.updateCar f).disp = s.disp := rfl

@[simp] theorem State.updateCar_groups (s : State) (f : Car → Car) : (s.updateCar f).groups = s.groups := rfl

@[simp] theorem State.updateCar_lines (s : State) (f : Car → Car) : (s.updateCar f).lines = s.lines := rfl

@[simp] theorem State.updateCar_settings (s : State) (f : Car → Car) : (s.updateCar f).settings = s.settings := rfl

@[simp] theorem State.updateCar_scratch (s : State) (f : Car → Car) : (s.updateCar f).scratch = s.scratch := rfl

/-! ## sendCar -/

@[simp] theorem State.sendCar_pending (s : State) (t : CarTelegram) : (s.sendCar t).pending = s.pending := rfl

@[simp] theorem State.sendCar_phase (s : State) (t : CarTelegram) : (s.sendCar t).phase = s.phase := rfl

@[simp] theorem State.sendCar_clock (s : State) (t : CarTelegram) : (s.sendCar t).clock = s.clock := rfl

@[simp] theorem State.sendCar_resetDue (s : State) (t : CarTelegram) : (s.sendCar t).resetDue = s.resetDue := rfl

@[simp] theorem State.sendCar_host (s : State) (t : CarTelegram) : (s.sendCar t).host = s.host := rfl

@[simp] theorem State.sendCar_jobs (s : State) (t : CarTelegram) : (s.sendCar t).jobs = s.jobs := rfl

@[simp] theorem State.sendCar_done (s : State) (t : CarTelegram) : (s.sendCar t).done = s.done := rfl

@[simp] theorem State.sendCar_freeCount (s : State) (t : CarTelegram) : (s.sendCar t).freeCount = s.freeCount := rfl

@[simp] theorem State.sendCar_aisles (s : State) (t : CarTelegram) : (s.sendCar t).aisles = s.aisles := rfl

@[simp] theorem State.sendCar_slots (s : State) (t : CarTelegram) : (s.sendCar t).slots = s.slots := rfl

@[simp] theorem State.sendCar_disp (s : State) (t : CarTelegram) : (s.sendCar t).disp = s.disp := rfl

@[simp] theorem State.sendCar_groups (s : State) (t : CarTelegram) : (s.sendCar t).groups = s.groups := rfl

@[simp] theorem State.sendCar_lines (s : State) (t : CarTelegram) : (s.sendCar t).lines = s.lines := rfl

@[simp] theorem State.sendCar_settings (s : State) (t : CarTelegram) : (s.sendCar t).settings = s.settings := rfl

@[simp] theorem State.sendCar_scratch (s : State) (t : CarTelegram) : (s.sendCar t).scratch = s.scratch := rfl

/-! ## restartCarSilence -/

@[simp] theorem State.restartCarSilence_pending (s : State) : (s.restartCarSilence).pending = s.pending := rfl

@[simp] theorem State.restartCarSilence_phase (s : State) : (s.restartCarSilence).phase = s.phase := rfl

@[simp] theorem State.restartCarSilence_clock (s : State) : (s.restartCarSilence).clock = s.clock := rfl

@[simp] theorem State.restartCarSilence_resetDue (s : State) : (s.restartCarSilence).resetDue = s.resetDue := rfl

@[simp] theorem State.restartCarSilence_host (s : State) : (s.restartCarSilence).host = s.host := rfl

@[simp] theorem State.restartCarSilence_jobs (s : State) : (s.restartCarSilence).jobs = s.jobs := rfl

@[simp] theorem State.restartCarSilence_done (s : State) : (s.restartCarSilence).done = s.done := rfl

@[simp] theorem State.restartCarSilence_freeCount (s : State) : (s.restartCarSilence).freeCount = s.freeCount := rfl

@[simp] theorem State.restartCarSilence_aisles (s : State) : (s.restartCarSilence).aisles = s.aisles := rfl

@[simp] theorem State.restartCarSilence_slots (s : State) : (s.restartCarSilence).slots = s.slots := rfl

@[simp] theorem State.restartCarSilence_disp (s : State) : (s.restartCarSilence).disp = s.disp := rfl

@[simp] theorem State.restartCarSilence_groups (s : State) : (s.restartCarSilence).groups = s.groups := rfl

@[simp] theorem State.restartCarSilence_lines (s : State) : (s.restartCarSilence).lines = s.lines := rfl

@[simp] theorem State.restartCarSilence_settings (s : State) : (s.restartCarSilence).settings = s.settings := rfl

@[simp] theorem State.restartCarSilence_scratch (s : State) : (s.restartCarSilence).scratch = s.scratch := rfl

/-! ## openCarExchange -/

@[simp] theorem State.openCarExchange_pending (s : State) (o : Bool) (t : CarTelegram) : (s.openCarExchange o t).pending = s.pending := rfl

@[simp] theorem State.openCarExchange_phase (s : State) (o : Bool) (t : CarTelegram) : (s.openCarExchange o t).phase = s.phase := rfl

@[simp] theorem State.openCarExchange_clock (s : State) (o : Bool) (t : CarTelegram) : (s.openCarExchange o t).clock = s.clock := rfl

@[simp] theorem State.openCarExchange_resetDue (s : State) (o : Bool) (t : CarTelegram) : (s.openCarExchange o t).resetDue = s.resetDue := rfl

@[simp] theorem State.openCarExchange_host (s : State) (o : Bool) (t : CarTelegram) : (s.openCarExchange o t).host = s.host := rfl

@[simp] theorem State.openCarExchange_jobs (s : State) (o : Bool) (t : CarTelegram) : (s.openCarExchange o t).jobs = s.jobs := rfl

@[simp] theorem State.openCarExchange_done (s : State) (o : Bool) (t : CarTelegram) : (s.openCarExchange o t).done = s.done := rfl

@[simp] theorem State.openCarExchange_freeCount (s : State) (o : Bool) (t : CarTelegram) : (s.openCarExchange o t).freeCount = s.freeCount := rfl

@[simp] theorem State.openCarExchange_aisles (s : State) (o : Bool) (t : CarTelegram) : (s.openCarExchange o t).aisles = s.aisles := rfl

@[simp] theorem State.openCarExchange_slots (s : State) (o : Bool) (t : CarTelegram) : (s.openCarExchange o t).slots = s.slots := rfl

@[simp] theorem State.openCarExchange_disp (s : State) (o : Bool) (t : CarTelegram) : (s.openCarExchange o t).disp = s.disp := rfl

@[simp] theorem State.openCarExchange_groups (s : State) (o : Bool) (t : CarTelegram) : (s.openCarExchange o t).groups = s.groups := rfl

@[simp] theorem State.openCarExchange_lines (s : State) (o : Bool) (t : CarTelegram) : (s.openCarExchange o t).lines = s.lines := rfl

@[simp] theorem State.openCarExchange_settings (s : State) (o : Bool) (t : CarTelegram) : (s.openCarExchange o t).settings = s.settings := rfl

@[simp] theorem State.openCarExchange_scratch (s : State) (o : Bool) (t : CarTelegram) : (s.openCarExchange o t).scratch = s.scratch := rfl

/-! ## closeCarExchange -/

@[simp] theorem State.closeCarExchange_pending (s : State) : (s.closeCarExchange).pending = s.pending := rfl

@[simp] theorem State.closeCarExchange_phase (s : State) : (s.closeCarExchange).phase = s.phase := rfl

@[simp] theorem State.closeCarExchange_clock (s : State) : (s.closeCarExchange).clock = s.clock := rfl

@[simp] theorem State.closeCarExchange_resetDue (s : State) : (s.closeCarExchange).resetDue = s.resetDue := rfl

@[simp] theorem State.closeCarExchange_host (s : State) : (s.closeCarExchange).host = s.host := rfl

@[simp] theorem State.closeCarExchange_jobs (s : State) : (s.closeCarExchange).jobs = s.jobs := rfl

@[simp] theorem State.closeCarExchange_done (s : State) : (s.closeCarExchange).done = s.done := rfl

@[simp] theorem State.closeCarExchange_freeCount (s : State) : (s.closeCarExchange).freeCount = s.freeCount := rfl

@[simp] theorem State.closeCarExchange_aisles (s : State) : (s.closeCarExchange).aisles = s.aisles := rfl

@[simp] theorem State.closeCarExchange_slots (s : State) : (s.closeCarExchange).slots = s.slots := rfl

@[simp] theorem State.closeCarExchange_disp (s : State) : (s.closeCarExchange).disp = s.disp := rfl

@[simp] theorem State.closeCarExchange_groups (s : State) : (s.closeCarExchange).groups = s.groups := rfl

@[simp] theorem State.closeCarExchange_lines (s : State) : (s.closeCarExchange).lines = s.lines := rfl

@[simp] theorem State.closeCarExchange_settings (s : State) : (s.closeCarExchange).settings = s.settings := rfl

@[simp] theorem State.closeCarExchange_scratch (s : State) : (s.closeCarExchange).scratch = s.scratch := rfl

/-! ## send -/

@[simp] theorem State.send_pending (s : State) (c : Fin 8) (t : Telegram) : (s.send c t).pending = s.pending := rfl

@[simp] theorem State.send_phase (s : State) (c : Fin 8) (t : Telegram) : (s.send c t).phase = s.phase := rfl

@[simp] theorem State.send_clock (s : State) (c : Fin 8) (t : Telegram) : (s.send c t).clock = s.clock := rfl

@[simp] theorem State.send_resetDue (s : State) (c : Fin 8) (t : Telegram) : (s.send c t).resetDue = s.resetDue := rfl

@[simp] theorem State.send_host (s : State) (c : Fin 8) (t : Telegram) : (s.send c t).host = s.host := rfl

@[simp] theorem State.send_jobs (s : State) (c : Fin 8) (t : Telegram) : (s.send c t).jobs = s.jobs := rfl

@[simp] theorem State.send_done (s : State) (c : Fin 8) (t : Telegram) : (s.send c t).done = s.done := rfl

@[simp] theorem State.send_freeCount (s : State) (c : Fin 8) (t : Telegram) : (s.send c t).freeCount = s.freeCount := rfl

@[simp] theorem State.send_aisles (s : State) (c : Fin 8) (t : Telegram) : (s.send c t).aisles = s.aisles := rfl

@[simp] theorem State.send_slots (s : State) (c : Fin 8) (t : Telegram) : (s.send c t).slots = s.slots := rfl

@[simp] theorem State.send_disp (s : State) (c : Fin 8) (t : Telegram) : (s.send c t).disp = s.disp := rfl

@[simp] theorem State.send_groups (s : State) (c : Fin 8) (t : Telegram) : (s.send c t).groups = s.groups := rfl

@[simp] theorem State.send_car (s : State) (c : Fin 8) (t : Telegram) : (s.send c t).car = s.car := rfl

@[simp] theorem State.send_settings (s : State) (c : Fin 8) (t : Telegram) : (s.send c t).settings = s.settings := rfl

@[simp] theorem State.send_scratch (s : State) (c : Fin 8) (t : Telegram) : (s.send c t).scratch = s.scratch := rfl

/-! ## restartSilence -/

@[simp] theorem State.restartSilence_pending (s : State) (c : Fin 8) : (s.restartSilence c).pending = s.pending := rfl

@[simp] theorem State.restartSilence_phase (s : State) (c : Fin 8) : (s.restartSilence c).phase = s.phase := rfl

@[simp] theorem State.restartSilence_clock (s : State) (c : Fin 8) : (s.restartSilence c).clock = s.clock := rfl

@[simp] theorem State.restartSilence_resetDue (s : State) (c : Fin 8) : (s.restartSilence c).resetDue = s.resetDue := rfl

@[simp] theorem State.restartSilence_host (s : State) (c : Fin 8) : (s.restartSilence c).host = s.host := rfl

@[simp] theorem State.restartSilence_jobs (s : State) (c : Fin 8) : (s.restartSilence c).jobs = s.jobs := rfl

@[simp] theorem State.restartSilence_done (s : State) (c : Fin 8) : (s.restartSilence c).done = s.done := rfl

@[simp] theorem State.restartSilence_freeCount (s : State) (c : Fin 8) : (s.restartSilence c).freeCount = s.freeCount := rfl

@[simp] theorem State.restartSilence_aisles (s : State) (c : Fin 8) : (s.restartSilence c).aisles = s.aisles := rfl

@[simp] theorem State.restartSilence_slots (s : State) (c : Fin 8) : (s.restartSilence c).slots = s.slots := rfl

@[simp] theorem State.restartSilence_disp (s : State) (c : Fin 8) : (s.restartSilence c).disp = s.disp := rfl

@[simp] theorem State.restartSilence_groups (s : State) (c : Fin 8) : (s.restartSilence c).groups = s.groups := rfl

@[simp] theorem State.restartSilence_car (s : State) (c : Fin 8) : (s.restartSilence c).car = s.car := rfl

@[simp] theorem State.restartSilence_settings (s : State) (c : Fin 8) : (s.restartSilence c).settings = s.settings := rfl

@[simp] theorem State.restartSilence_scratch (s : State) (c : Fin 8) : (s.restartSilence c).scratch = s.scratch := rfl

/-! ## openExchange -/

@[simp] theorem State.openExchange_pending (s : State) (c : Fin 8) (k : ExchangeKind) (t : Telegram) : (s.openExchange c k t).pending = s.pending := rfl

@[simp] theorem State.openExchange_phase (s : State) (c : Fin 8) (k : ExchangeKind) (t : Telegram) : (s.openExchange c k t).phase = s.phase := rfl

@[simp] theorem State.openExchange_clock (s : State) (c : Fin 8) (k : ExchangeKind) (t : Telegram) : (s.openExchange c k t).clock = s.clock := rfl

@[simp] theorem State.openExchange_resetDue (s : State) (c : Fin 8) (k : ExchangeKind) (t : Telegram) : (s.openExchange c k t).resetDue = s.resetDue := rfl

@[simp] theorem State.openExchange_host (s : State) (c : Fin 8) (k : ExchangeKind) (t : Telegram) : (s.openExchange c k t).host = s.host := rfl

@[simp] theorem State.openExchange_jobs (s : State) (c : Fin 8) (k : ExchangeKind) (t : Telegram) : (s.openExchange c k t).jobs = s.jobs := rfl

@[simp] theorem State.openExchange_done (s : State) (c : Fin 8) (k : ExchangeKind) (t : Telegram) : (s.openExchange c k t).done = s.done := rfl

@[simp] theorem State.openExchange_freeCount (s : State) (c : Fin 8) (k : ExchangeKind) (t : Telegram) : (s.openExchange c k t).freeCount = s.freeCount := rfl

@[simp] theorem State.openExchange_aisles (s : State) (c : Fin 8) (k : ExchangeKind) (t : Telegram) : (s.openExchange c k t).aisles = s.aisles := rfl

@[simp] theorem State.openExchange_slots (s : State) (c : Fin 8) (k : ExchangeKind) (t : Telegram) : (s.openExchange c k t).slots = s.slots := rfl

@[simp] theorem State.openExchange_disp (s : State) (c : Fin 8) (k : ExchangeKind) (t : Telegram) : (s.openExchange c k t).disp = s.disp := rfl

@[simp] theorem State.openExchange_groups (s : State) (c : Fin 8) (k : ExchangeKind) (t : Telegram) : (s.openExchange c k t).groups = s.groups := rfl

@[simp] theorem State.openExchange_car (s : State) (c : Fin 8) (k : ExchangeKind) (t : Telegram) : (s.openExchange c k t).car = s.car := rfl

@[simp] theorem State.openExchange_settings (s : State) (c : Fin 8) (k : ExchangeKind) (t : Telegram) : (s.openExchange c k t).settings = s.settings := rfl

@[simp] theorem State.openExchange_scratch (s : State) (c : Fin 8) (k : ExchangeKind) (t : Telegram) : (s.openExchange c k t).scratch = s.scratch := rfl

/-! ## closeExchange -/

@[simp] theorem State.closeExchange_pending (s : State) (c : Fin 8) : (s.closeExchange c).pending = s.pending := rfl

@[simp] theorem State.closeExchange_phase (s : State) (c : Fin 8) : (s.closeExchange c).phase = s.phase := rfl

@[simp] theorem State.closeExchange_clock (s : State) (c : Fin 8) : (s.closeExchange c).clock = s.clock := rfl

@[simp] theorem State.closeExchange_resetDue (s : State) (c : Fin 8) : (s.closeExchange c).resetDue = s.resetDue := rfl

@[simp] theorem State.closeExchange_host (s : State) (c : Fin 8) : (s.closeExchange c).host = s.host := rfl

@[simp] theorem State.closeExchange_jobs (s : State) (c : Fin 8) : (s.closeExchange c).jobs = s.jobs := rfl

@[simp] theorem State.closeExchange_done (s : State) (c : Fin 8) : (s.closeExchange c).done = s.done := rfl

@[simp] theorem State.closeExchange_freeCount (s : State) (c : Fin 8) : (s.closeExchange c).freeCount = s.freeCount := rfl

@[simp] theorem State.closeExchange_aisles (s : State) (c : Fin 8) : (s.closeExchange c).aisles = s.aisles := rfl

@[simp] theorem State.closeExchange_slots (s : State) (c : Fin 8) : (s.closeExchange c).slots = s.slots := rfl

@[simp] theorem State.closeExchange_disp (s : State) (c : Fin 8) : (s.closeExchange c).disp = s.disp := rfl

@[simp] theorem State.closeExchange_groups (s : State) (c : Fin 8) : (s.closeExchange c).groups = s.groups := rfl

@[simp] theorem State.closeExchange_car (s : State) (c : Fin 8) : (s.closeExchange c).car = s.car := rfl

@[simp] theorem State.closeExchange_settings (s : State) (c : Fin 8) : (s.closeExchange c).settings = s.settings := rfl

@[simp] theorem State.closeExchange_scratch (s : State) (c : Fin 8) : (s.closeExchange c).scratch = s.scratch := rfl

/-! ## setLink -/

@[simp] theorem State.setLink_pending (s : State) (c : Fin 8) (k : LinkState) : (s.setLink c k).pending = s.pending := rfl

@[simp] theorem State.setLink_phase (s : State) (c : Fin 8) (k : LinkState) : (s.setLink c k).phase = s.phase := rfl

@[simp] theorem State.setLink_clock (s : State) (c : Fin 8) (k : LinkState) : (s.setLink c k).clock = s.clock := rfl

@[simp] theorem State.setLink_resetDue (s : State) (c : Fin 8) (k : LinkState) : (s.setLink c k).resetDue = s.resetDue := rfl

@[simp] theorem State.setLink_host (s : State) (c : Fin 8) (k : LinkState) : (s.setLink c k).host = s.host := rfl

@[simp] theorem State.setLink_jobs (s : State) (c : Fin 8) (k : LinkState) : (s.setLink c k).jobs = s.jobs := rfl

@[simp] theorem State.setLink_done (s : State) (c : Fin 8) (k : LinkState) : (s.setLink c k).done = s.done := rfl

@[simp] theorem State.setLink_freeCount (s : State) (c : Fin 8) (k : LinkState) : (s.setLink c k).freeCount = s.freeCount := rfl

@[simp] theorem State.setLink_aisles (s : State) (c : Fin 8) (k : LinkState) : (s.setLink c k).aisles = s.aisles := rfl

@[simp] theorem State.setLink_slots (s : State) (c : Fin 8) (k : LinkState) : (s.setLink c k).slots = s.slots := rfl

@[simp] theorem State.setLink_disp (s : State) (c : Fin 8) (k : LinkState) : (s.setLink c k).disp = s.disp := rfl

@[simp] theorem State.setLink_groups (s : State) (c : Fin 8) (k : LinkState) : (s.setLink c k).groups = s.groups := rfl

@[simp] theorem State.setLink_car (s : State) (c : Fin 8) (k : LinkState) : (s.setLink c k).car = s.car := rfl

@[simp] theorem State.setLink_settings (s : State) (c : Fin 8) (k : LinkState) : (s.setLink c k).settings = s.settings := rfl

@[simp] theorem State.setLink_scratch (s : State) (c : Fin 8) (k : LinkState) : (s.setLink c k).scratch = s.scratch := rfl

/-! ## dropTrip -/

@[simp] theorem State.dropTrip_pending (s : State) (c : Fin 8) : (s.dropTrip c).pending = s.pending := rfl

@[simp] theorem State.dropTrip_phase (s : State) (c : Fin 8) : (s.dropTrip c).phase = s.phase := rfl

@[simp] theorem State.dropTrip_clock (s : State) (c : Fin 8) : (s.dropTrip c).clock = s.clock := rfl

@[simp] theorem State.dropTrip_resetDue (s : State) (c : Fin 8) : (s.dropTrip c).resetDue = s.resetDue := rfl

@[simp] theorem State.dropTrip_host (s : State) (c : Fin 8) : (s.dropTrip c).host = s.host := rfl

@[simp] theorem State.dropTrip_jobs (s : State) (c : Fin 8) : (s.dropTrip c).jobs = s.jobs := rfl

@[simp] theorem State.dropTrip_done (s : State) (c : Fin 8) : (s.dropTrip c).done = s.done := rfl

@[simp] theorem State.dropTrip_freeCount (s : State) (c : Fin 8) : (s.dropTrip c).freeCount = s.freeCount := rfl

@[simp] theorem State.dropTrip_aisles (s : State) (c : Fin 8) : (s.dropTrip c).aisles = s.aisles := rfl

@[simp] theorem State.dropTrip_slots (s : State) (c : Fin 8) : (s.dropTrip c).slots = s.slots := rfl

@[simp] theorem State.dropTrip_disp (s : State) (c : Fin 8) : (s.dropTrip c).disp = s.disp := rfl

@[simp] theorem State.dropTrip_groups (s : State) (c : Fin 8) : (s.dropTrip c).groups = s.groups := rfl

@[simp] theorem State.dropTrip_car (s : State) (c : Fin 8) : (s.dropTrip c).car = s.car := rfl

@[simp] theorem State.dropTrip_settings (s : State) (c : Fin 8) : (s.dropTrip c).settings = s.settings := rfl

@[simp] theorem State.dropTrip_scratch (s : State) (c : Fin 8) : (s.dropTrip c).scratch = s.scratch := rfl

/-! ## finishLeg -/

@[simp] theorem State.finishLeg_pending (s : State) (c : Fin 8) (n : Nat) : (s.finishLeg c n).pending = s.pending := rfl

@[simp] theorem State.finishLeg_phase (s : State) (c : Fin 8) (n : Nat) : (s.finishLeg c n).phase = s.phase := rfl

@[simp] theorem State.finishLeg_clock (s : State) (c : Fin 8) (n : Nat) : (s.finishLeg c n).clock = s.clock := rfl

@[simp] theorem State.finishLeg_resetDue (s : State) (c : Fin 8) (n : Nat) : (s.finishLeg c n).resetDue = s.resetDue := rfl

@[simp] theorem State.finishLeg_host (s : State) (c : Fin 8) (n : Nat) : (s.finishLeg c n).host = s.host := rfl

@[simp] theorem State.finishLeg_jobs (s : State) (c : Fin 8) (n : Nat) : (s.finishLeg c n).jobs = s.jobs := rfl

@[simp] theorem State.finishLeg_done (s : State) (c : Fin 8) (n : Nat) : (s.finishLeg c n).done = s.done := rfl

@[simp] theorem State.finishLeg_freeCount (s : State) (c : Fin 8) (n : Nat) : (s.finishLeg c n).freeCount = s.freeCount := rfl

@[simp] theorem State.finishLeg_aisles (s : State) (c : Fin 8) (n : Nat) : (s.finishLeg c n).aisles = s.aisles := rfl

@[simp] theorem State.finishLeg_slots (s : State) (c : Fin 8) (n : Nat) : (s.finishLeg c n).slots = s.slots := rfl

@[simp] theorem State.finishLeg_disp (s : State) (c : Fin 8) (n : Nat) : (s.finishLeg c n).disp = s.disp := rfl

@[simp] theorem State.finishLeg_groups (s : State) (c : Fin 8) (n : Nat) : (s.finishLeg c n).groups = s.groups := rfl

@[simp] theorem State.finishLeg_car (s : State) (c : Fin 8) (n : Nat) : (s.finishLeg c n).car = s.car := rfl

@[simp] theorem State.finishLeg_settings (s : State) (c : Fin 8) (n : Nat) : (s.finishLeg c n).settings = s.settings := rfl

@[simp] theorem State.finishLeg_scratch (s : State) (c : Fin 8) (n : Nat) : (s.finishLeg c n).scratch = s.scratch := rfl

/-! ## leaveQueue -/

@[simp] theorem State.leaveQueue_pending (s : State) (c : Fin 8) : (s.leaveQueue c).pending = s.pending := rfl

@[simp] theorem State.leaveQueue_phase (s : State) (c : Fin 8) : (s.leaveQueue c).phase = s.phase := rfl

@[simp] theorem State.leaveQueue_clock (s : State) (c : Fin 8) : (s.leaveQueue c).clock = s.clock := rfl

@[simp] theorem State.leaveQueue_resetDue (s : State) (c : Fin 8) : (s.leaveQueue c).resetDue = s.resetDue := rfl

@[simp] theorem State.leaveQueue_host (s : State) (c : Fin 8) : (s.leaveQueue c).host = s.host := rfl

@[simp] theorem State.leaveQueue_jobs (s : State) (c : Fin 8) : (s.leaveQueue c).jobs = s.jobs := rfl

@[simp] theorem State.leaveQueue_done (s : State) (c : Fin 8) : (s.leaveQueue c).done = s.done := rfl

@[simp] theorem State.leaveQueue_freeCount (s : State) (c : Fin 8) : (s.leaveQueue c).freeCount = s.freeCount := rfl

@[simp] theorem State.leaveQueue_aisles (s : State) (c : Fin 8) : (s.leaveQueue c).aisles = s.aisles := rfl

@[simp] theorem State.leaveQueue_slots (s : State) (c : Fin 8) : (s.leaveQueue c).slots = s.slots := rfl

@[simp] theorem State.leaveQueue_disp (s : State) (c : Fin 8) : (s.leaveQueue c).disp = s.disp := rfl

@[simp] theorem State.leaveQueue_groups (s : State) (c : Fin 8) : (s.leaveQueue c).groups = s.groups := rfl

@[simp] theorem State.leaveQueue_lines (s : State) (c : Fin 8) : (s.leaveQueue c).lines = s.lines := rfl

@[simp] theorem State.leaveQueue_settings (s : State) (c : Fin 8) : (s.leaveQueue c).settings = s.settings := rfl

@[simp] theorem State.leaveQueue_scratch (s : State) (c : Fin 8) : (s.leaveQueue c).scratch = s.scratch := rfl

/-! ## updateTransfer -/

@[simp] theorem State.updateTransfer_pending (s : State) (c : Fin 8) (f : Transfer → Transfer) : (s.updateTransfer c f).pending = s.pending := rfl

@[simp] theorem State.updateTransfer_phase (s : State) (c : Fin 8) (f : Transfer → Transfer) : (s.updateTransfer c f).phase = s.phase := rfl

@[simp] theorem State.updateTransfer_clock (s : State) (c : Fin 8) (f : Transfer → Transfer) : (s.updateTransfer c f).clock = s.clock := rfl

@[simp] theorem State.updateTransfer_resetDue (s : State) (c : Fin 8) (f : Transfer → Transfer) : (s.updateTransfer c f).resetDue = s.resetDue := rfl

@[simp] theorem State.updateTransfer_host (s : State) (c : Fin 8) (f : Transfer → Transfer) : (s.updateTransfer c f).host = s.host := rfl

@[simp] theorem State.updateTransfer_jobs (s : State) (c : Fin 8) (f : Transfer → Transfer) : (s.updateTransfer c f).jobs = s.jobs := rfl

@[simp] theorem State.updateTransfer_done (s : State) (c : Fin 8) (f : Transfer → Transfer) : (s.updateTransfer c f).done = s.done := rfl

@[simp] theorem State.updateTransfer_freeCount (s : State) (c : Fin 8) (f : Transfer → Transfer) : (s.updateTransfer c f).freeCount = s.freeCount := rfl

@[simp] theorem State.updateTransfer_aisles (s : State) (c : Fin 8) (f : Transfer → Transfer) : (s.updateTransfer c f).aisles = s.aisles := rfl

@[simp] theorem State.updateTransfer_slots (s : State) (c : Fin 8) (f : Transfer → Transfer) : (s.updateTransfer c f).slots = s.slots := rfl

@[simp] theorem State.updateTransfer_disp (s : State) (c : Fin 8) (f : Transfer → Transfer) : (s.updateTransfer c f).disp = s.disp := rfl

@[simp] theorem State.updateTransfer_groups (s : State) (c : Fin 8) (f : Transfer → Transfer) : (s.updateTransfer c f).groups = s.groups := rfl

@[simp] theorem State.updateTransfer_car (s : State) (c : Fin 8) (f : Transfer → Transfer) : (s.updateTransfer c f).car = s.car := rfl

@[simp] theorem State.updateTransfer_settings (s : State) (c : Fin 8) (f : Transfer → Transfer) : (s.updateTransfer c f).settings = s.settings := rfl

@[simp] theorem State.updateTransfer_scratch (s : State) (c : Fin 8) (f : Transfer → Transfer) : (s.updateTransfer c f).scratch = s.scratch := rfl

/-! ## setFilter -/

@[simp] theorem State.setFilter_pending (s : State) (n : Fin 8) (f : HoldFilter) : (s.setFilter n f).pending = s.pending := rfl

@[simp] theorem State.setFilter_phase (s : State) (n : Fin 8) (f : HoldFilter) : (s.setFilter n f).phase = s.phase := rfl

@[simp] theorem State.setFilter_clock (s : State) (n : Fin 8) (f : HoldFilter) : (s.setFilter n f).clock = s.clock := rfl

@[simp] theorem State.setFilter_resetDue (s : State) (n : Fin 8) (f : HoldFilter) : (s.setFilter n f).resetDue = s.resetDue := rfl

@[simp] theorem State.setFilter_host (s : State) (n : Fin 8) (f : HoldFilter) : (s.setFilter n f).host = s.host := rfl

@[simp] theorem State.setFilter_jobs (s : State) (n : Fin 8) (f : HoldFilter) : (s.setFilter n f).jobs = s.jobs := rfl

@[simp] theorem State.setFilter_done (s : State) (n : Fin 8) (f : HoldFilter) : (s.setFilter n f).done = s.done := rfl

@[simp] theorem State.setFilter_freeCount (s : State) (n : Fin 8) (f : HoldFilter) : (s.setFilter n f).freeCount = s.freeCount := rfl

@[simp] theorem State.setFilter_aisles (s : State) (n : Fin 8) (f : HoldFilter) : (s.setFilter n f).aisles = s.aisles := rfl

@[simp] theorem State.setFilter_slots (s : State) (n : Fin 8) (f : HoldFilter) : (s.setFilter n f).slots = s.slots := rfl

@[simp] theorem State.setFilter_groups (s : State) (n : Fin 8) (f : HoldFilter) : (s.setFilter n f).groups = s.groups := rfl

@[simp] theorem State.setFilter_car (s : State) (n : Fin 8) (f : HoldFilter) : (s.setFilter n f).car = s.car := rfl

@[simp] theorem State.setFilter_lines (s : State) (n : Fin 8) (f : HoldFilter) : (s.setFilter n f).lines = s.lines := rfl

@[simp] theorem State.setFilter_settings (s : State) (n : Fin 8) (f : HoldFilter) : (s.setFilter n f).settings = s.settings := rfl

@[simp] theorem State.setFilter_scratch (s : State) (n : Fin 8) (f : HoldFilter) : (s.setFilter n f).scratch = s.scratch := rfl

/-! ## setCounters -/

@[simp] theorem State.setCounters_pending (s : State) (c : Fin 8) (k : Counters) : (s.setCounters c k).pending = s.pending := rfl

@[simp] theorem State.setCounters_phase (s : State) (c : Fin 8) (k : Counters) : (s.setCounters c k).phase = s.phase := rfl

@[simp] theorem State.setCounters_clock (s : State) (c : Fin 8) (k : Counters) : (s.setCounters c k).clock = s.clock := rfl

@[simp] theorem State.setCounters_resetDue (s : State) (c : Fin 8) (k : Counters) : (s.setCounters c k).resetDue = s.resetDue := rfl

@[simp] theorem State.setCounters_host (s : State) (c : Fin 8) (k : Counters) : (s.setCounters c k).host = s.host := rfl

@[simp] theorem State.setCounters_jobs (s : State) (c : Fin 8) (k : Counters) : (s.setCounters c k).jobs = s.jobs := rfl

@[simp] theorem State.setCounters_done (s : State) (c : Fin 8) (k : Counters) : (s.setCounters c k).done = s.done := rfl

@[simp] theorem State.setCounters_freeCount (s : State) (c : Fin 8) (k : Counters) : (s.setCounters c k).freeCount = s.freeCount := rfl

@[simp] theorem State.setCounters_aisles (s : State) (c : Fin 8) (k : Counters) : (s.setCounters c k).aisles = s.aisles := rfl

@[simp] theorem State.setCounters_slots (s : State) (c : Fin 8) (k : Counters) : (s.setCounters c k).slots = s.slots := rfl

@[simp] theorem State.setCounters_disp (s : State) (c : Fin 8) (k : Counters) : (s.setCounters c k).disp = s.disp := rfl

@[simp] theorem State.setCounters_groups (s : State) (c : Fin 8) (k : Counters) : (s.setCounters c k).groups = s.groups := rfl

@[simp] theorem State.setCounters_car (s : State) (c : Fin 8) (k : Counters) : (s.setCounters c k).car = s.car := rfl

@[simp] theorem State.setCounters_settings (s : State) (c : Fin 8) (k : Counters) : (s.setCounters c k).settings = s.settings := rfl

@[simp] theorem State.setCounters_scratch (s : State) (c : Fin 8) (k : Counters) : (s.setCounters c k).scratch = s.scratch := rfl

/-! ## answer -/

@[simp] theorem State.answer_pending (s : State) (r : Request) (x : Status) (b : List Byte) : (s.answer r x b).pending = s.pending := rfl

@[simp] theorem State.answer_phase (s : State) (r : Request) (x : Status) (b : List Byte) : (s.answer r x b).phase = s.phase := rfl

@[simp] theorem State.answer_clock (s : State) (r : Request) (x : Status) (b : List Byte) : (s.answer r x b).clock = s.clock := rfl

@[simp] theorem State.answer_resetDue (s : State) (r : Request) (x : Status) (b : List Byte) : (s.answer r x b).resetDue = s.resetDue := rfl

@[simp] theorem State.answer_jobs (s : State) (r : Request) (x : Status) (b : List Byte) : (s.answer r x b).jobs = s.jobs := rfl

@[simp] theorem State.answer_done (s : State) (r : Request) (x : Status) (b : List Byte) : (s.answer r x b).done = s.done := rfl

@[simp] theorem State.answer_freeCount (s : State) (r : Request) (x : Status) (b : List Byte) : (s.answer r x b).freeCount = s.freeCount := rfl

@[simp] theorem State.answer_aisles (s : State) (r : Request) (x : Status) (b : List Byte) : (s.answer r x b).aisles = s.aisles := rfl

@[simp] theorem State.answer_slots (s : State) (r : Request) (x : Status) (b : List Byte) : (s.answer r x b).slots = s.slots := rfl

@[simp] theorem State.answer_disp (s : State) (r : Request) (x : Status) (b : List Byte) : (s.answer r x b).disp = s.disp := rfl

@[simp] theorem State.answer_groups (s : State) (r : Request) (x : Status) (b : List Byte) : (s.answer r x b).groups = s.groups := rfl

@[simp] theorem State.answer_car (s : State) (r : Request) (x : Status) (b : List Byte) : (s.answer r x b).car = s.car := rfl

@[simp] theorem State.answer_lines (s : State) (r : Request) (x : Status) (b : List Byte) : (s.answer r x b).lines = s.lines := rfl

@[simp] theorem State.answer_settings (s : State) (r : Request) (x : Status) (b : List Byte) : (s.answer r x b).settings = s.settings := rfl

@[simp] theorem State.answer_scratch (s : State) (r : Request) (x : Status) (b : List Byte) : (s.answer r x b).scratch = s.scratch := rfl

/-! ## popRequest -/

@[simp] theorem State.popRequest_pending (s : State) : (s.popRequest).pending = s.pending := rfl

@[simp] theorem State.popRequest_phase (s : State) : (s.popRequest).phase = s.phase := rfl

@[simp] theorem State.popRequest_clock (s : State) : (s.popRequest).clock = s.clock := rfl

@[simp] theorem State.popRequest_resetDue (s : State) : (s.popRequest).resetDue = s.resetDue := rfl

@[simp] theorem State.popRequest_jobs (s : State) : (s.popRequest).jobs = s.jobs := rfl

@[simp] theorem State.popRequest_done (s : State) : (s.popRequest).done = s.done := rfl

@[simp] theorem State.popRequest_freeCount (s : State) : (s.popRequest).freeCount = s.freeCount := rfl

@[simp] theorem State.popRequest_aisles (s : State) : (s.popRequest).aisles = s.aisles := rfl

@[simp] theorem State.popRequest_slots (s : State) : (s.popRequest).slots = s.slots := rfl

@[simp] theorem State.popRequest_disp (s : State) : (s.popRequest).disp = s.disp := rfl

@[simp] theorem State.popRequest_groups (s : State) : (s.popRequest).groups = s.groups := rfl

@[simp] theorem State.popRequest_car (s : State) : (s.popRequest).car = s.car := rfl

@[simp] theorem State.popRequest_lines (s : State) : (s.popRequest).lines = s.lines := rfl

@[simp] theorem State.popRequest_settings (s : State) : (s.popRequest).settings = s.settings := rfl

@[simp] theorem State.popRequest_scratch (s : State) : (s.popRequest).scratch = s.scratch := rfl

/-! ## What the updates write -/

@[simp] theorem State.setJob_jobs (s : State) (i : Nat) (j : Job) : (s.setJob i j).jobs = insertKey i j s.jobs := rfl

@[simp] theorem State.takeRecord_jobs (s : State) (i : Nat) (j : Job) :
    (s.takeRecord i j).jobs = insertKey i j s.jobs := rfl

@[simp] theorem State.takeRecord_freeCount (s : State) (i : Nat) (j : Job) :
    (s.takeRecord i j).freeCount = s.freeCount - 1 := rfl

@[simp] theorem State.tellDispatcher_disp (s : State) :
    s.tellDispatcher.disp = { s.disp with passesDue := s.disp.passesDue + 1 } := rfl

@[simp] theorem State.noteInput_scratch (s : State) (c : Fin 8) (n : Nat) :
    (s.noteInput c n).scratch = { s.scratch with inputs := s.scratch.inputs ++ [(c, n)] } := rfl

@[simp] theorem State.noteLine_scratch (s : State) (c : Fin 8) :
    (s.noteLine c).scratch = { s.scratch with told := s.scratch.told ++ [c] } := rfl

@[simp] theorem State.noteOwn_scratch (s : State) (i : Nat) :
    (s.noteOwn i).scratch = { s.scratch with own := s.scratch.own ++ [i] } := rfl

@[simp] theorem State.collect_scratch (s : State) (js : List Nat) :
    (s.collect js).scratch = { s.scratch with collected := s.scratch.collected ++ js } := rfl

@[simp] theorem State.updateCar_car (s : State) (f : Car → Car) : (s.updateCar f).car = f s.car := rfl

@[simp] theorem State.raise_host (s : State) (x : Alert) :
    (s.raise x).host = { s.host with alerts := s.host.alerts ||| alertBit x } := rfl

@[simp] theorem State.answer_host (s : State) (r : Request) (x : Status) (b : List Byte) :
    (s.answer r x b).host = { s.host with replies := s.host.replies ++ [⟨r.code, r.number, x, b⟩] } := rfl

@[simp] theorem State.popRequest_host (s : State) :
    s.popRequest.host = { s.host with requests := s.host.requests.tail } := rfl

@[simp] theorem State.line_setLine (s : State) (c : Fin 8) (l : Line) : (s.setLine c l).line c = l := by
  simp [State.line, State.setLine, Vector.get_eq_getElem]

theorem State.line_setLine_ne (s : State) (c d : Fin 8) (l : Line) (h : d ≠ c) : (s.setLine c l).line d = s.line d := by
  have h' : c.val ≠ d.val := fun e => h (Fin.ext e.symm)
  simp [State.line, State.setLine, Vector.get_eq_getElem, Vector.getElem_set_ne, h']

@[simp] theorem State.line_updateLine (s : State) (c : Fin 8) (f : Line → Line) :
    (s.updateLine c f).line c = f (s.line c) := State.line_setLine s c _

theorem State.line_updateLine_ne (s : State) (c d : Fin 8) (f : Line → Line) (h : d ≠ c) :
    (s.updateLine c f).line d = s.line d := State.line_setLine_ne s c d _ h

@[simp] theorem State.aisle_setAisle (s : State) (a : Fin 16) (r : Aisle) : (s.setAisle a r).aisle a = r := by
  simp [State.aisle, State.setAisle, Vector.get_eq_getElem]

theorem State.aisle_setAisle_ne (s : State) (a b : Fin 16) (r : Aisle) (h : b ≠ a) :
    (s.setAisle a r).aisle b = s.aisle b := by
  have h' : a.val ≠ b.val := fun e => h (Fin.ext e.symm)
  simp [State.aisle, State.setAisle, Vector.get_eq_getElem, Vector.getElem_set_ne, h']

@[simp] theorem State.group_setGroup (s : State) (g : Fin 16) (r : Group) : (s.setGroup g r).group g = r := by
  simp [State.group, State.setGroup, Vector.get_eq_getElem]

theorem State.group_setGroup_ne (s : State) (g k : Fin 16) (r : Group) (h : k ≠ g) :
    (s.setGroup g r).group k = s.group k := by
  have h' : g.val ≠ k.val := fun e => h (Fin.ext e.symm)
  simp [State.group, State.setGroup, Vector.get_eq_getElem, Vector.getElem_set_ne, h']

/-- Without a request in the list, taking its head changes nothing. -/
theorem State.popRequest_of_empty (s : State) (h : s.host.requests = []) : s.popRequest = s := by
  obtain ⟨_, _, _, _, host, _⟩ := s
  cases host
  simp_all [State.popRequest]

/-- A request whose turn has come is handled without its head entry in the list (R170). -/
theorem State.hostRequest_of_turn (s : State) (r : Request) (f : State → State) (h : s.hasTurn r) :
    s.hostRequest r f = f s.popRequest := by
  unfold State.hostRequest
  rcases h with h | h
  · simp [h, State.popRequest_of_empty s h]
  · cases hr : s.host.requests with
    | nil => simp [hr] at h
    | cons q rest => simp [hr] at h; simp [h]

end Sys2Proof.Machine
end

