-- ==== Sys2Proof/Laws/Records.lean ====
section
/-! SUPPORT. Lists of records in rising key: reading after writing, and that writing and removing keep the one form;
that writing a slot record keeps the Slot Map in its one form. -/

namespace Sys2Proof.Machine

variable {α : Type}

theorem lookup_insertKey_self (k : Nat) (v : α) (l : List (Nat × α)) : lookup k (insertKey k v l) = some v := by
  induction l with
  | nil => simp [insertKey, lookup]
  | cons e rest ih =>
    obtain ⟨k', v'⟩ := e
    simp only [insertKey]
    split
    · simp [lookup]
    · split
      · simp [lookup]
      · simp [lookup, ih]; omega

theorem lookup_insertKey_ne (k m : Nat) (v : α) (l : List (Nat × α)) (h : m ≠ k) :
    lookup m (insertKey k v l) = lookup m l := by
  induction l with
  | nil => simp [insertKey, lookup, h]
  | cons e rest ih =>
    obtain ⟨k', v'⟩ := e
    simp only [insertKey]
    split
    · simp [lookup, h]
    · split
      · subst_vars; simp [lookup, h]
      · simp [lookup, ih]

theorem lookup_removeKey_self (k : Nat) (l : List (Nat × α)) : lookup k (removeKey k l) = none := by
  induction l with
  | nil => rfl
  | cons e rest ih =>
    obtain ⟨k', v'⟩ := e
    simp only [removeKey]
    split
    · exact ih
    · simp [lookup, *]

theorem lookup_removeKey_ne (k m : Nat) (l : List (Nat × α)) (h : m ≠ k) : lookup m (removeKey k l) = lookup m l := by
  induction l with
  | nil => rfl
  | cons e rest ih =>
    obtain ⟨k', v'⟩ := e
    simp only [removeKey]
    split
    · subst_vars; simp [lookup, ih, h]
    · simp [lookup, ih]

/-- Every key of the list lies above `k`. -/
def allAbove (k : Nat) (l : List (Nat × α)) : Prop := ∀ e ∈ l, k < e.1

theorem rising_cons (e : Nat × α) (l : List (Nat × α)) : rising (e :: l) = true ↔ allAbove e.1 l ∧ rising l = true := by
  induction l generalizing e with
  | nil => simp [rising, allAbove]
  | cons x rest ih =>
    simp only [rising, Bool.and_eq_true, decide_eq_true_eq]
    constructor
    · rintro ⟨h1, h2⟩
      refine ⟨?_, h2⟩
      intro y hy
      rcases List.mem_cons.1 hy with rfl | hy
      · exact h1
      · exact Nat.lt_trans h1 ((ih x).1 h2 |>.1 y hy)
    · rintro ⟨h1, h2⟩
      exact ⟨h1 x (by simp), h2⟩

theorem allAbove_insertKey (n k : Nat) (v : α) (l : List (Nat × α)) (h : allAbove n l) (hk : n < k) :
    allAbove n (insertKey k v l) := by
  induction l with
  | nil => intro e he; simp [insertKey] at he; subst he; exact hk
  | cons x rest ih =>
    obtain ⟨k', v'⟩ := x
    have hrest : allAbove n rest := fun e he => h e (by simp [he])
    have hx : n < k' := h (k', v') (by simp)
    intro e he
    simp only [insertKey] at he
    split at he
    · simp only [List.mem_cons] at he
      rcases he with rfl | rfl | he
      · exact hk
      · exact hx
      · exact hrest e he
    · split at he
      · rcases List.mem_cons.1 he with rfl | he
        · exact hk
        · exact hrest e he
      · rcases List.mem_cons.1 he with rfl | he
        · exact hx
        · exact ih hrest e he

/-- Writing a record keeps the keys strictly rising. -/
theorem rising_insertKey (k : Nat) (v : α) (l : List (Nat × α)) (h : rising l = true) :
    rising (insertKey k v l) = true := by
  induction l with
  | nil => rfl
  | cons x rest ih =>
    obtain ⟨k', v'⟩ := x
    obtain ⟨ha, hr⟩ := (rising_cons _ _).1 h
    simp only [insertKey]
    split
    · rename_i hlt
      refine (rising_cons _ _).2 ⟨?_, h⟩
      intro e he
      rcases List.mem_cons.1 he with rfl | he
      · exact hlt
      · exact Nat.lt_trans hlt (ha e he)
    · split
      · subst_vars; exact (rising_cons _ _).2 ⟨ha, hr⟩
      · exact (rising_cons _ _).2 ⟨allAbove_insertKey _ _ _ _ ha (by simp; omega), ih hr⟩

theorem mem_removeKey (k : Nat) (l : List (Nat × α)) (e : Nat × α) (h : e ∈ removeKey k l) : e ∈ l ∧ e.1 ≠ k := by
  induction l with
  | nil => simp [removeKey] at h
  | cons x rest ih =>
    obtain ⟨k', v'⟩ := x
    simp only [removeKey] at h
    split at h
    · exact ⟨List.mem_cons_of_mem _ (ih h).1, (ih h).2⟩
    · rcases List.mem_cons.1 h with rfl | h
      · exact ⟨by simp, fun e => by simp_all⟩
      · exact ⟨List.mem_cons_of_mem _ (ih h).1, (ih h).2⟩

/-- Removing a record keeps the keys strictly rising. -/
theorem rising_removeKey (k : Nat) (l : List (Nat × α)) (h : rising l = true) : rising (removeKey k l) = true := by
  induction l with
  | nil => rfl
  | cons x rest ih =>
    obtain ⟨k', v'⟩ := x
    obtain ⟨ha, hr⟩ := (rising_cons _ _).1 h
    simp only [removeKey]
    split
    · exact ih hr
    · exact (rising_cons _ _).2 ⟨fun e he => ha e (mem_removeKey _ _ _ he).1, ih hr⟩

theorem mem_insertKey (k : Nat) (v : α) (l : List (Nat × α)) (e : Nat × α) (h : e ∈ insertKey k v l) :
    e = (k, v) ∨ e ∈ l := by
  induction l with
  | nil => simpa [insertKey] using h
  | cons x rest ih =>
    obtain ⟨k', v'⟩ := x
    simp only [insertKey] at h
    split at h
    · simpa using h
    · split at h
      · rcases List.mem_cons.1 h with h | h
        · exact .inl h
        · exact .inr (by simp [h])
      · rcases List.mem_cons.1 h with h | h
        · exact .inr (by simp [h])
        · rcases ih h with h | h
          · exact .inl h
          · exact .inr (by simp [h])

@[simp] theorem State.job_setJob_self (s : State) (i : Nat) (j : Job) : (s.setJob i j).job i = some j :=
  lookup_insertKey_self i j s.jobs

theorem State.job_setJob_ne (s : State) (i k : Nat) (j : Job) (h : k ≠ i) : (s.setJob i j).job k = s.job k :=
  lookup_insertKey_ne i k j s.jobs h

/-- The aisle number can be read back from a slot key. -/
theorem slotKey_aisle (a : Fin 16) (p : SlotPos) : slotKey a p / 16384 = a.val := by
  obtain ⟨side, level, bay, depth⟩ := p
  have h1 := Nat.mod_lt level (show 0 < 32 by omega)
  have h2 := Nat.mod_lt bay (show 0 < 128 by omega)
  cases side <;> cases depth <;> simp only [slotKey] <;> omega

/-- Writing an aisle's counts leaves its geometry, and so what an unlisted slot reads as. -/
theorem State.defaultClass_putSlot (s : State) (a b : Fin 16) (p : SlotPos) (r : Slot) :
    (s.putSlot a p r).defaultClass b = s.defaultClass b := by
  have h : (s.putSlot a p r).aisle b = (s.setAisle a ((s.aisle a).moveCounts (s.slot a p) r)).aisle b := rfl
  unfold State.defaultClass
  rw [h]
  by_cases hb : b = a
  · subst hb; rw [State.aisle_setAisle]; rfl
  · rw [State.aisle_setAisle_ne _ _ _ _ hb]

/-- A slot record reads as it was last written. -/
theorem State.slot_putSlot_self (s : State) (a : Fin 16) (p : SlotPos) (r : Slot) : (s.putSlot a p r).slot a p = r := by
  unfold State.slot
  rw [State.defaultClass_putSlot]
  show (lookup _ (if r = _ then removeKey _ s.slots else insertKey _ r s.slots)).getD _ = r
  split
  · rename_i h; rw [lookup_removeKey_self, h]; rfl
  · rw [lookup_insertKey_self]; rfl

/-- Writing a slot record leaves every other slot. -/
theorem State.slot_putSlot_ne (s : State) (a b : Fin 16) (p q : SlotPos) (r : Slot) (h : slotKey b q ≠ slotKey a p) :
    (s.putSlot a p r).slot b q = s.slot b q := by
  unfold State.slot
  rw [State.defaultClass_putSlot]
  show (lookup _ (if r = _ then removeKey _ s.slots else insertKey _ r s.slots)).getD _ = _
  split
  · rw [lookup_removeKey_ne _ _ _ h]
  · rw [lookup_insertKey_ne _ _ _ _ h]

/-- Writing a slot record keeps the Slot Map in its one form. -/
theorem State.slotsCanonical_putSlot (s : State) (a : Fin 16) (p : SlotPos) (r : Slot)
    (h : s.slotsCanonical = true) : (s.putSlot a p r).slotsCanonical = true := by
  simp only [State.slotsCanonical, Bool.and_eq_true, List.all_eq_true, decide_eq_true_eq] at h ⊢
  obtain ⟨hr, hd⟩ := h
  have hs : (s.putSlot a p r).slots = if r = freshSlot (s.defaultClass a) then removeKey (slotKey a p) s.slots
      else insertKey (slotKey a p) r s.slots := rfl
  constructor
  · rw [hs]
    split
    · exact rising_removeKey _ _ hr
    · exact rising_insertKey _ _ _ hr
  · intro e he
    rw [State.defaultClass_putSlot]
    rw [hs] at he
    split at he
    · exact hd e (mem_removeKey _ _ _ he).1
    · rename_i hne
      rcases mem_insertKey _ _ _ _ he with rfl | he
      · have : (Fin.ofNat 16 (slotKey a p / 16384)) = a := by
          rw [slotKey_aisle]; ext; simp
        have hk := slotKey_aisle a p
        have ha := a.isLt
        simp only [this]; exact ⟨by omega, hne⟩
      · exact hd e he

end Sys2Proof.Machine
end

