-- ==== Sys2Proof/Laws/EventEnd.lean ====
section
/-! SUPPORT. What the end of an event can do: it always leaves a settled state; when no job is noted or collected it
leaves everything but counters, drained marks, alerts and told passes; and on a settled state it changes nothing. -/

namespace Sys2Proof.Machine

/-- The summary conditions do not read the port. -/
theorem State.heldConditions_host (s : State) (h : HostPort) :
    ({ s with host := h } : State).heldConditions = s.heldConditions := rfl

theorem State.takeConditions_conditions (s : State) : s.takeConditions.host.conditions = s.heldConditions := rfl

theorem State.takeConditions_attention (s : State) :
    s.takeConditions.host.attention = s.takeConditions.host.wantsAttention := rfl

/-- The end of an event, step by step. -/
theorem State.finish_eq (s b : State) : s.finish b =
    ({ allCranes.foldl b.tellLine (s.settleEvaluations.countInputs b) with scratch := .empty } : State).takeConditions :=
  rfl

@[simp] theorem State.finish_scratch (s b : State) : (s.finish b).scratch = .empty := rfl

theorem State.takeConditions_settled (s : State) (h : s.scratch = .empty) : s.takeConditions.Settled := ⟨h, rfl, rfl⟩

/-- The end of an event leaves the conditions fresh and ATTENTION as R178 gives it. -/
theorem State.finish_settled (s b : State) : (s.finish b).Settled := by
  rw [State.finish_eq]
  generalize allCranes.foldl b.tellLine (s.settleEvaluations.countInputs b) = u
  exact State.takeConditions_settled _ rfl

/-- An event leaves a settled state. -/
theorem State.event_settled (s : State) (f : State → State) : (s.event f).Settled := State.finish_settled _ _

/-- No job is noted or collected. -/
def State.Quiet (s : State) : Prop := s.scratch.own = [] ∧ s.scratch.collected = []

theorem State.settleEvaluations_quiet (s : State) (h : s.Quiet) : s.settleEvaluations = s := by
  obtain ⟨h1, h2⟩ := h
  have ho : ({ s with scratch := { s.scratch with own := [] } } : State) = s := by
    cases s; rename_i scratch; cases scratch; simp_all
  simp only [State.settleEvaluations, h1, List.foldl_nil, ho]
  have hc : s.ageOrder s.scratch.collected = [] := by simp [State.ageOrder, h2, sortBy]
  rw [hc]
  cases s; rename_i scratch; cases scratch; simp_all

theorem State.setLine_bare (s : State) (c : Fin 8) (l : Line) (h : l.bare = (s.line c).bare) :
    (s.setLine c l).bare = s.bare := by
  have hl : (s.lines.set c.val l c.isLt).map Line.bare = s.lines.map Line.bare := by
    apply Vector.ext
    intro i hi
    simp only [Vector.getElem_map, Vector.getElem_set]
    split
    · subst_vars; rw [h]; rfl
    · rfl
  simp only [State.bare, State.setLine, hl]

theorem State.updateLine_bare (s : State) (c : Fin 8) (f : Line → Line) (h : (f (s.line c)).bare = (s.line c).bare) :
    (s.updateLine c f).bare = s.bare := State.setLine_bare s c _ h

@[simp] theorem State.raise_bare (s : State) (x : Alert) : (s.raise x).bare = s.bare := rfl

@[simp] theorem State.tellDispatcher_bare (s : State) : s.tellDispatcher.bare = s.bare := rfl

@[simp] theorem State.takeConditions_bare (s : State) : s.takeConditions.bare = s.bare := rfl

/-- One more count: the counter, and on a wrap that drains the drained mark with the alert SERVICE. -/
theorem State.bump_cases (s : State) (c : Fin 8) (id : CounterId) :
    (((s.line c).counters.get id).drains = true ∧
      s.bump c id = ((s.updateLine c (fun l =>
        { l with counters := l.counters.set id ((s.line c).counters.get id).count })).updateCtx c
          (fun x => { x with drained := true })).raise .service) ∨
    (((s.line c).counters.get id).drains = false ∧
      s.bump c id = s.updateLine c (fun l =>
        { l with counters := l.counters.set id ((s.line c).counters.get id).count })) := by
  cases h : ((s.line c).counters.get id).drains with
  | true => exact .inl ⟨rfl, by simp only [State.bump, h, if_true]⟩
  | false => exact .inr ⟨rfl, by simp only [State.bump, h, Bool.false_eq_true, if_false]⟩

theorem State.bump_bare (s : State) (c : Fin 8) (id : CounterId) : (s.bump c id).bare = s.bare := by
  have h1 : (s.updateLine c (fun l => { l with counters := l.counters.set id ((s.line c).counters.get id).count })).bare
      = s.bare := State.setLine_bare s c _ rfl
  rcases State.bump_cases s c id with ⟨-, h⟩ | ⟨-, h⟩
  · rw [h, State.raise_bare]
    exact (State.updateLine_bare _ c (fun l => { l with ctx := { l.ctx with drained := true } }) rfl).trans h1
  · rw [h]; exact h1

theorem State.bumpTimes_bare (s : State) (c : Fin 8) (id : CounterId) (n : Nat) : (s.bumpTimes c id n).bare = s.bare := by
  induction n generalizing s with
  | zero => rfl
  | succ n ih => simp only [State.bumpTimes, ih, State.bump_bare]

theorem foldl_same {σ β : Type} (f : σ → β → σ) (t : σ) (h : ∀ x, f t x = t) (l : List β) : l.foldl f t = t := by
  induction l with
  | nil => rfl
  | cons x xs ih => rw [List.foldl_cons, h, ih]

theorem foldl_bare {β : Type} (f : State → β → State) (h : ∀ t x, (f t x).bare = t.bare) (l : List β) (t : State) :
    (l.foldl f t).bare = t.bare := by
  induction l generalizing t with
  | nil => rfl
  | cons x xs ih => rw [List.foldl_cons, ih, h]

theorem State.countLine_bare (b t : State) (c : Fin 8) : (b.countLine t c).bare = t.bare :=
  foldl_bare _ (fun _ _ => State.bumpTimes_bare _ _ _ _) _ _

theorem State.countInputs_bare (s b : State) : (s.countInputs b).bare = s.bare :=
  foldl_bare _ (fun t c => State.countLine_bare b t c) _ _

theorem State.tellLine_bare (b t : State) (c : Fin 8) : (b.tellLine t c).bare = t.bare := by
  unfold State.tellLine; split <;> rfl

/-- The end of an event with no job noted or collected leaves everything but counters, drained marks, alerts with
their conditions and ATTENTION, and told passes. -/
theorem State.finish_bare (s b : State) (h : s.Quiet) : (s.finish b).bare = s.bare := by
  have h1 := (foldl_bare b.tellLine (State.tellLine_bare b) allCranes (s.countInputs b)).trans
    (State.countInputs_bare s b)
  rw [State.finish_eq, State.settleEvaluations_quiet s h]
  generalize allCranes.foldl b.tellLine (s.countInputs b) = u at h1 ⊢
  exact h1

/-- An event that notes and collects no job. -/
theorem State.event_bare (s : State) (f : State → State) (h : (f s).Quiet) : (s.event f).bare = (f s).bare :=
  State.finish_bare _ _ h

theorem State.Grows.refl (s : State) : s.Grows s := ⟨by simp, Nat.le_refl _⟩

theorem alerts_trans (x y z : AlertSet) (h1 : x &&& ~~~y = 0) (h2 : y &&& ~~~z = 0) : x &&& ~~~z = 0 := by
  apply BitVec.eq_of_getLsbD_eq
  intro i hi
  have a := congrArg (fun v => v.getLsbD i) h1
  have b := congrArg (fun v => v.getLsbD i) h2
  simp [hi] at a b ⊢
  intro hx
  exact b (a hx)

theorem alerts_or (x y : AlertSet) : x &&& ~~~(x ||| y) = 0 := by
  apply BitVec.eq_of_getLsbD_eq
  intro i hi
  simp [hi]
  intro h1 h2
  simp_all

theorem State.Grows.trans {s t u : State} (h1 : s.Grows t) (h2 : t.Grows u) : s.Grows u :=
  ⟨alerts_trans _ _ _ h1.1 h2.1, Nat.le_trans h1.2 h2.2⟩

theorem State.raise_grows (s : State) (x : Alert) : s.Grows (s.raise x) := ⟨alerts_or _ _, Nat.le_refl _⟩

theorem State.takeConditions_grows (s : State) : s.Grows s.takeConditions := ⟨alerts_or _ _, Nat.le_refl _⟩

theorem State.updateLine_grows (s : State) (c : Fin 8) (f : Line → Line) : s.Grows (s.updateLine c f) :=
  ⟨by simp, Nat.le_refl _⟩

theorem State.bump_grows (s : State) (c : Fin 8) (id : CounterId) : s.Grows (s.bump c id) := by
  rcases State.bump_cases s c id with ⟨-, h⟩ | ⟨-, h⟩
  · rw [h]
    exact ((State.updateLine_grows s c _).trans (State.updateLine_grows _ c _)).trans (State.raise_grows _ _)
  · rw [h]; exact State.updateLine_grows s c _

theorem State.bumpTimes_grows (s : State) (c : Fin 8) (id : CounterId) (n : Nat) : s.Grows (s.bumpTimes c id n) := by
  induction n generalizing s with
  | zero => exact State.Grows.refl s
  | succ n ih => exact (State.bump_grows s c id).trans (ih _)

theorem foldl_grows {β : Type} (f : State → β → State) (h : ∀ (t : State) x, t.Grows (f t x)) (l : List β) (t : State) :
    t.Grows (l.foldl f t) := by
  induction l generalizing t with
  | nil => exact State.Grows.refl t
  | cons x xs ih => exact (h t x).trans (ih _)

theorem State.countLine_grows (b t : State) (c : Fin 8) : t.Grows (b.countLine t c) :=
  foldl_grows _ (fun _ _ => State.bumpTimes_grows _ _ _ _) _ _

theorem State.tellLine_grows (b t : State) (c : Fin 8) : t.Grows (b.tellLine t c) := by
  unfold State.tellLine
  split
  · exact ⟨by simp, Nat.le_succ _⟩
  · exact State.Grows.refl t

/-- What an event has raised and told stands at its end, when no job is noted or collected. -/
theorem State.finish_grows (s b : State) (h : s.Quiet) : s.Grows (s.finish b) := by
  have h1 : s.Grows (s.countInputs b) := foldl_grows _ (fun t c => State.countLine_grows b t c) _ _
  have h2 := foldl_grows b.tellLine (State.tellLine_grows b) allCranes (s.countInputs b)
  rw [State.finish_eq, State.settleEvaluations_quiet s h]
  have h3 := h1.trans h2
  generalize allCranes.foldl b.tellLine (s.countInputs b) = u at h3 ⊢
  exact h3.trans (State.takeConditions_grows ({ u with scratch := .empty } : State))

theorem State.amountA_settled (s : State) (c : Fin 8) (n : Nat) (h : s.scratch = .empty) : s.amountA s c n = 0 := by
  unfold State.amountA State.occurrences
  rw [h]
  split
  · rfl
  · split
    · cases s.inputHolds c n <;> rfl
    · rfl

theorem State.amountB_settled (s : State) (c : Fin 8) (n : Nat) (h : s.scratch = .empty) : s.amountB c n = 0 := by
  unfold State.amountB State.occurrences
  rw [h]
  split
  · rfl
  · split
    · split <;> rfl
    · rfl

theorem State.countLine_settled (s : State) (c : Fin 8) (h : s.scratch = .empty) : s.countLine s c = s := by
  have hg : ∀ f x y, s.gatedA s c f x y = 0 := by
    intro f x y
    unfold State.gatedA
    split
    · exact State.amountA_settled s c _ h
    · rfl
  have ha : ∀ id, s.amount s c id = 0 := by
    intro id
    cases id <;> simp only [State.amount, hg, State.amountB_settled s c _ h]
  exact foldl_same _ _ (fun id => by simp only [State.countCounter, ha, State.bumpTimes]) _

/-- Conditions and ATTENTION that stand as they are to be taken stay as they are. -/
theorem State.takeConditions_fresh (s : State) (h1 : s.host.conditions = s.heldConditions)
    (h2 : s.host.attention = s.host.wantsAttention) : s.takeConditions = s := by
  have ha : s.host.alerts ||| (s.host.conditions &&& ~~~s.host.conditions) = s.host.alerts := by simp
  unfold State.takeConditions
  simp only [← h1, ha]
  have hw : ({ s.host with attention := s.host.wantsAttention } : HostPort) = s.host := by rw [← h2]
  exact congrArg (fun h => ({ s with host := h } : State)) hw

/-- A state whose scratch is empty is as it stands with its scratch emptied. -/
theorem State.scratch_cleared (s : State) (h : s.scratch = .empty) : ({ s with scratch := .empty } : State) = s := by
  rw [← h]

/-- The end of an event that changed nothing of a settled state changes nothing. -/
theorem State.finish_of_settled (s : State) (h : s.Settled) : s.finish s = s := by
  obtain ⟨h1, h2, h3⟩ := h
  have hq : s.Quiet := by simp [State.Quiet, h1, Scratch.empty]
  have hc : s.countInputs s = s := foldl_same _ _ (fun c => State.countLine_settled s c h1) _
  have ht : allCranes.foldl s.tellLine s = s := 
    foldl_same _ _ (fun c => by simp [State.tellLine, h1, Scratch.empty]) _
  rw [State.finish_eq, State.settleEvaluations_quiet s hq, hc, ht, State.scratch_cleared s h1,
    State.takeConditions_fresh s h2 h3]

/-- An A counter counts nothing of an event without event inputs that makes no state input hold. -/
theorem State.amountA_plain (s b : State) (c : Fin 8) (n : Nat) (hi : s.scratch.inputs = [])
    (hh : s.inputHolds c n = true → b.inputHolds c n = true) : b.amountA s c n = 0 := by
  unfold State.amountA State.occurrences
  split
  · rfl
  · split
    · cases hs : s.inputHolds c n with
      | false => rfl
      | true => simp [hh hs]
    · simp [hi]

/-- A B counter counts nothing of an event without event inputs. -/
theorem State.amountB_plain (s : State) (c : Fin 8) (n : Nat) (hi : s.scratch.inputs = []) : s.amountB c n = 0 := by
  unfold State.amountB State.occurrences
  simp [hi]

/-- A line whose crane has not become eligible tells nothing. -/
theorem State.tellLine_plain (s b : State) (hh : ∀ c n, s.inputHolds c n = true → b.inputHolds c n = true) (c : Fin 8) :
    b.tellLine s c = s := by
  have h : s.eligible c = true → b.eligible c = true := hh c 12
  unfold State.tellLine
  generalize s.eligible c = x, b.eligible c = y at h ⊢
  cases x <;> cases y <;> simp_all

/-- The end of an event that notes and collects no job, has no event input and makes no state input hold that did not:
no counter counts, no drained mark changes and no pass is told; the conditions are taken afresh. -/
theorem State.finish_plain (s b : State) (hq : s.Quiet) (hi : s.scratch.inputs = [])
    (hh : ∀ c n, s.inputHolds c n = true → b.inputHolds c n = true) :
    s.finish b = ({ s with scratch := .empty } : State).takeConditions := by
  have hg : ∀ c f x y, b.gatedA s c f x y = 0 := by
    intro c f x y
    unfold State.gatedA
    split
    · exact State.amountA_plain s b c _ hi (hh c _)
    · rfl
  have ha : ∀ c id, b.amount s c id = 0 := by
    intro c id
    cases id <;> simp only [State.amount, hg, State.amountB_plain s c _ hi]
  have hl : ∀ c, b.countLine s c = s :=
    fun c => foldl_same _ _ (fun id => by simp only [State.countCounter, ha, State.bumpTimes]) _
  have hc : s.countInputs b = s := foldl_same _ _ hl _
  have ht : allCranes.foldl b.tellLine s = s := foldl_same _ _ (State.tellLine_plain s b hh) _
  rw [State.finish_eq, State.settleEvaluations_quiet s hq, hc, ht]

/-- Counting touches neither the Dispatcher nor what the event has noted. -/
theorem State.bump_rest (s : State) (c : Fin 8) (id : CounterId) :
    (s.bump c id).scratch = s.scratch ∧ (s.bump c id).disp = s.disp := by
  rcases State.bump_cases s c id with ⟨-, h⟩ | ⟨-, h⟩ <;> rw [h] <;> exact ⟨rfl, rfl⟩

theorem foldl_rest {β : Type} (f : State → β → State)
    (h : ∀ t x, (f t x).scratch = t.scratch ∧ (f t x).disp = t.disp) (l : List β) (t : State) :
    (l.foldl f t).scratch = t.scratch ∧ (l.foldl f t).disp = t.disp := by
  induction l generalizing t with
  | nil => exact ⟨rfl, rfl⟩
  | cons x xs ih => rw [List.foldl_cons]; exact ⟨(ih _).1.trans (h t x).1, (ih _).2.trans (h t x).2⟩

theorem State.bumpTimes_rest (s : State) (c : Fin 8) (id : CounterId) (n : Nat) :
    (s.bumpTimes c id n).scratch = s.scratch ∧ (s.bumpTimes c id n).disp = s.disp := by
  induction n generalizing s with
  | zero => exact ⟨rfl, rfl⟩
  | succ n ih =>
    exact ⟨(ih (s.bump c id)).1.trans (State.bump_rest s c id).1, (ih (s.bump c id)).2.trans (State.bump_rest s c id).2⟩

theorem State.countInputs_rest (s b : State) :
    (s.countInputs b).scratch = s.scratch ∧ (s.countInputs b).disp = s.disp :=
  foldl_rest _ (fun _ _ => foldl_rest _ (fun _ _ => State.bumpTimes_rest _ _ _ _) _ _) _ _

/-- The end of an event that notes no line tells no pass. -/
theorem State.finish_disp (s b : State) (hq : s.Quiet) (ht : s.scratch.told = []) : (s.finish b).disp = s.disp := by
  obtain ⟨h1, h2⟩ := State.countInputs_rest s b
  rw [State.finish_eq, State.settleEvaluations_quiet s hq]
  generalize s.countInputs b = u at h1 h2 ⊢
  have h3 : allCranes.foldl b.tellLine u = u :=
    foldl_same _ _ (fun c => by rw [State.tellLine, h1, ht]; rfl) _
  rw [h3]
  exact h2

/-- What an event does, when it notes and collects no job, is what its command completes with. -/
theorem completes_of_event (i : Instr) (s u : State) (f : State → State) (h : exec i s = .next (s.event f))
    (hq : (f s).Quiet) (hb : (f s).bare = u.bare) (hg : u.Grows (f s)) : Completes i s u :=
  ⟨_, h, State.event_settled s f, (State.event_bare s f hq).trans hb, hg.trans (State.finish_grows _ _ hq)⟩

/-- An event without effect leaves a settled state as it stood. -/
theorem State.event_id (s : State) (f : State → State) (h : s.Settled) (hf : f s = s) : s.event f = s := by
  unfold State.event; rw [hf, State.finish_of_settled s h]

end Sys2Proof.Machine
end

