-- ==== Sys2Proof/Laws/Requests.lean ====
section
/-! SUPPORT. What a host request whose turn has come does: the two refusals by form, and the three ways of carrying it
out, each with what its owner made of it. -/

namespace Sys2Proof.Machine

@[simp] theorem State.answer_bare (s : State) (r : Request) (x : Status) (b : List Byte) :
    (s.answer r x b).bare = s.bare.answer r x b := rfl

theorem State.answer_settled (s : State) (r : Request) (x : Status) (b : List Byte) (h : s.Settled) :
    (s.answer r x b).Settled := ⟨h.1, h.2, h.3⟩

theorem State.answer_grows (s t : State) (r : Request) (x y : Status) (b d : List Byte) (h : s.Grows t) :
    (s.answer r x b).Grows (t.answer r y d) := h

theorem State.grows_answer (s t : State) (r : Request) (x : Status) (b : List Byte) (h : s.Grows t) :
    s.Grows (t.answer r x b) := h

theorem State.handle_length (s : State) (r : Request) (f : State → Served) (h : lengthAgrees r.code r.body = false) :
    s.handle r f = s.answer r .badField [] := by simp [State.handle, h]

theorem State.handlePlain_length (s : State) (r : Request) (f : State → Served)
    (h : lengthAgrees r.code r.body = false) : s.handlePlain r f = s.answer r .badField [] := by
  simp [State.handlePlain, h]

theorem State.handleQuery_length (s : State) (r : Request) (f : State → Status × List Byte)
    (h : lengthAgrees r.code r.body = false) : s.handleQuery r f = s.answer r .badField [] := by
  simp [State.handleQuery, h]

theorem State.handle_phase (s : State) (r : Request) (f : State → Served) (h : lengthAgrees r.code r.body = true)
    (hp : admitted r.code s.phase = false) : s.handle r f = s.answer r .wrongPhase [] := by simp [State.handle, h, hp]

theorem State.handlePlain_phase (s : State) (r : Request) (f : State → Served) (h : lengthAgrees r.code r.body = true)
    (hp : admitted r.code s.phase = false) : s.handlePlain r f = s.answer r .wrongPhase [] := by
  simp [State.handlePlain, h, hp]

theorem State.handleQuery_phase (s : State) (r : Request) (f : State → Status × List Byte)
    (h : lengthAgrees r.code r.body = true) (hp : admitted r.code s.phase = false) :
    s.handleQuery r f = s.answer r .wrongPhase [] := by simp [State.handleQuery, h, hp]

/-- A request carried out. -/
theorem State.handle_ok (s : State) (r : Request) (f : State → Served) (v : Served)
    (h : lengthAgrees r.code r.body = true) (hp : admitted r.code s.phase = true) (hv : f s = v)
    (hc : v.status.carriedOut = true) :
    s.handle r f = (v.state.finish s).answer r v.status (v.body (v.state.finish s)) := by
  simp [State.handle, h, hp, hv, hc]

/-- A request whose effects end the event themselves. -/
theorem State.handlePlain_ok (s : State) (r : Request) (f : State → Served) (v : Served)
    (h : lengthAgrees r.code r.body = true) (hp : admitted r.code s.phase = true) (hv : f s = v)
    (hc : v.status.carriedOut = true) : s.handlePlain r f = v.state.answer r v.status (v.body v.state) := by
  simp [State.handlePlain, h, hp, hv, hc]

/-- A request refused by its owner: nothing changes. -/
theorem State.handle_refused (s : State) (r : Request) (f : State → Served) (x : Status)
    (h : lengthAgrees r.code r.body = true) (hp : admitted r.code s.phase = true) (hv : f s = refuse s x)
    (hc : x.carriedOut = false) : s.handle r f = s.answer r x [] := by
  simp [State.handle, h, hp, hv, refuse, hc]

theorem State.handlePlain_refused (s : State) (r : Request) (f : State → Served) (x : Status)
    (h : lengthAgrees r.code r.body = true) (hp : admitted r.code s.phase = true) (hv : f s = refuse s x)
    (hc : x.carriedOut = false) : s.handlePlain r f = s.answer r x [] := by
  simp [State.handlePlain, h, hp, hv, refuse, hc]

/-- A query. -/
theorem State.handleQuery_ok (s : State) (r : Request) (f : State → Status × List Byte) (b : List Byte)
    (h : lengthAgrees r.code r.body = true) (hp : admitted r.code s.phase = true) (hv : f s = (.ok, b)) :
    s.handleQuery r f = s.answer r .ok b := by simp [State.handleQuery, h, hp, hv, Status.carriedOut]

/-- A query without a record. -/
theorem State.handleQuery_none (s : State) (r : Request) (f : State → Status × List Byte) (x : Status) (b : List Byte)
    (h : lengthAgrees r.code r.body = true) (hp : admitted r.code s.phase = true) (hv : f s = (x, b))
    (hc : x.carriedOut = false) : s.handleQuery r f = s.answer r x [] := by
  simp [State.handleQuery, h, hp, hv, hc]

/-! ## With the turn -/

theorem lengthAgrees_of (c : Byte) (b : List Byte) (row : RequestRow) (hr : requestRow c = some row) (he : row.entry = 0)
    (h : b.length = row.length) : lengthAgrees c b = true := by simp [lengthAgrees, hr, he, h]

theorem admitted_always (c : Byte) (p : Phase) (row : RequestRow) (hr : requestRow c = some row)
    (h : (row.loading && row.running && row.halted) = true) : admitted c p = true := by
  simp only [Bool.and_eq_true] at h
  cases p <;> simp [admitted, hr, h.1.1, h.1.2, h.2]

theorem State.hostRequest_plain (s : State) (r : Request) (f : State → Served) (v : Served) (ht : s.hasTurn r)
    (h : lengthAgrees r.code r.body = true) (hp : admitted r.code s.phase = true) (hv : f s.popRequest = v)
    (hc : v.status.carriedOut = true) :
    s.hostRequest r (fun t => t.handlePlain r f) = v.state.answer r v.status (v.body v.state) := by
  rw [State.hostRequest_of_turn _ _ _ ht]; exact State.handlePlain_ok s.popRequest r f v h hp hv hc

theorem State.hostRequest_plainRefused (s : State) (r : Request) (f : State → Served) (x : Status) (ht : s.hasTurn r)
    (h : lengthAgrees r.code r.body = true) (hp : admitted r.code s.phase = true)
    (hv : f s.popRequest = refuse s.popRequest x) (hc : x.carriedOut = false) :
    s.hostRequest r (fun t => t.handlePlain r f) = s.popRequest.answer r x [] := by
  rw [State.hostRequest_of_turn _ _ _ ht]; exact State.handlePlain_refused s.popRequest r f x h hp hv hc

theorem State.hostRequest_refused (s : State) (r : Request) (f : State → Served) (x : Status) (ht : s.hasTurn r)
    (h : lengthAgrees r.code r.body = true) (hp : admitted r.code s.phase = true)
    (hv : f s.popRequest = refuse s.popRequest x) (hc : x.carriedOut = false) :
    s.hostRequest r (fun t => t.handle r f) = s.popRequest.answer r x [] := by
  rw [State.hostRequest_of_turn _ _ _ ht]; exact State.handle_refused s.popRequest r f x h hp hv hc

theorem State.hostRequest_query (s : State) (r : Request) (f : State → Status × List Byte) (b : List Byte)
    (ht : s.hasTurn r) (h : lengthAgrees r.code r.body = true) (hp : admitted r.code s.phase = true)
    (hv : f s.popRequest = (.ok, b)) : s.hostRequest r (fun t => t.handleQuery r f) = s.popRequest.answer r .ok b := by
  rw [State.hostRequest_of_turn _ _ _ ht]; exact State.handleQuery_ok s.popRequest r f b h hp hv

theorem State.hostRequest_queryNone (s : State) (r : Request) (f : State → Status × List Byte) (x : Status)
    (b : List Byte) (ht : s.hasTurn r) (h : lengthAgrees r.code r.body = true)
    (hp : admitted r.code s.phase = true) (hv : f s.popRequest = (x, b)) (hc : x.carriedOut = false) :
    s.hostRequest r (fun t => t.handleQuery r f) = s.popRequest.answer r x [] := by
  rw [State.hostRequest_of_turn _ _ _ ht]; exact State.handleQuery_none s.popRequest r f x b h hp hv hc

/-- What a request that is carried out, and that notes and collects no job, completes with: the owner's state with its
reply, whose body reads nothing that the end of the event may change. -/
theorem completes_of_handle (i : Instr) (s u : State) (r : Request) (f : State → Served) (v : Served) (b : List Byte)
    (he : exec i s = .next (s.hostRequest r (fun t => t.handle r f))) (ht : s.hasTurn r)
    (h : lengthAgrees r.code r.body = true) (hp : admitted r.code s.phase = true) (hv : f s.popRequest = v)
    (hc : v.status.carriedOut = true) (hq : v.state.Quiet)
    (hbody : v.body (v.state.finish s.popRequest) = b)
    (hb : v.state.bare.answer r v.status b = u.bare) (hg : u.Grows v.state) : Completes i s u := by
  have hx : s.hostRequest r (fun t => t.handle r f) =
      (v.state.finish s.popRequest).answer r v.status b := by
    rw [State.hostRequest_of_turn _ _ _ ht, State.handle_ok s.popRequest r f v h hp hv hc, hbody]
  refine ⟨_, by rw [he, hx], State.answer_settled _ _ _ _ (State.finish_settled _ _), ?_, ?_⟩
  · rw [State.answer_bare, State.finish_bare _ _ hq, hb]
  · exact State.grows_answer _ _ _ _ _ (hg.trans (State.finish_grows _ _ hq))

/-- What a body reads, when the end of an event leaves the state it reads. -/
theorem body_of_bare {α : Type} (f : State → α) (hf : ∀ s t : State, s.bare = t.bare → f s = f t) (s b : State)
    (h : s.Quiet) : f (s.finish b) = f s := hf _ _ (State.finish_bare s b h)

end Sys2Proof.Machine
end

