-- ==== Sys2Proof/Laws/Normal.lean ====
section
/-! SUPPORT. What each record reads as after an update of another one, and a normal form of updates: writes of a line
stand innermost, so that writes of one line meet and the last one stays. -/

namespace Sys2Proof.Machine

/-- What goes past one occurrence of a counter input goes past several. -/
theorem State.noteInputs_push (s : State) (c : Fin 8) (k n : Nat) (f : State → State)
    (h : ∀ t : State, f (t.noteInput c k) = (f t).noteInput c k) : f (s.noteInputs c k n) = (f s).noteInputs c k n := by
  induction n generalizing s with
  | zero => rfl
  | succ n ih => rw [State.noteInputs, ih, h, State.noteInputs]

/-- Several occurrences of one counter input are gathered, and nothing else changes. -/
theorem State.noteInputs_cases (s : State) (c : Fin 8) (k n : Nat) :
    ∃ x, s.noteInputs c k n = { s with scratch := { s.scratch with inputs := x } } := by
  induction n generalizing s with
  | zero => exact ⟨s.scratch.inputs, rfl⟩
  | succ n ih => obtain ⟨x, h⟩ := ih (s.noteInput c k); exact ⟨x, h⟩

/-! ## setLine -/

@[simp] theorem State.aisle_setLine (s : State) (c : Fin 8) (l : Line) (e : Fin 16) : (s.setLine c l).aisle e = s.aisle e := rfl

@[simp] theorem State.group_setLine (s : State) (c : Fin 8) (l : Line) (e : Fin 16) : (s.setLine c l).group e = s.group e := rfl

@[simp] theorem State.job_setLine (s : State) (c : Fin 8) (l : Line) (e : Nat) : (s.setLine c l).job e = s.job e := rfl

@[simp] theorem State.slot_setLine (s : State) (c : Fin 8) (l : Line) (e : Fin 16) (p : SlotPos) : (s.setLine c l).slot e p = s.slot e p := rfl

@[simp] theorem State.byTag_setLine (s : State) (c : Fin 8) (l : Line) (e : Nat) : (s.setLine c l).byTag e = s.byTag e := rfl

@[simp] theorem State.holdsLock_setLine (s : State) (c : Fin 8) (l : Line) (e : Fin 8) (y : Fin 16) : (s.setLine c l).holdsLock e y = s.holdsLock e y := rfl

@[simp] theorem State.strandedTrip_setLine (s : State) (c : Fin 8) (l : Line) (e : Fin 8) (n : Nat) : (s.setLine c l).strandedTrip e n = s.strandedTrip e n := rfl

@[simp] theorem State.lowestFree_setLine (s : State) (c : Fin 8) (l : Line) : (s.setLine c l).lowestFree = s.lowestFree := rfl

@[simp] theorem State.doubleDeep_setLine (s : State) (c : Fin 8) (l : Line) (e : Fin 16) : (s.setLine c l).doubleDeep e = s.doubleDeep e := rfl

/-! ## setAisle -/

@[simp] theorem State.line_setAisle (s : State) (a : Fin 16) (r : Aisle) (e : Fin 8) : (s.setAisle a r).line e = s.line e := rfl

@[simp] theorem State.group_setAisle (s : State) (a : Fin 16) (r : Aisle) (e : Fin 16) : (s.setAisle a r).group e = s.group e := rfl

@[simp] theorem State.job_setAisle (s : State) (a : Fin 16) (r : Aisle) (e : Nat) : (s.setAisle a r).job e = s.job e := rfl

@[simp] theorem State.byTag_setAisle (s : State) (a : Fin 16) (r : Aisle) (e : Nat) : (s.setAisle a r).byTag e = s.byTag e := rfl

@[simp] theorem State.strandedTrip_setAisle (s : State) (a : Fin 16) (r : Aisle) (e : Fin 8) (n : Nat) : (s.setAisle a r).strandedTrip e n = s.strandedTrip e n := rfl

@[simp] theorem State.lowestFree_setAisle (s : State) (a : Fin 16) (r : Aisle) : (s.setAisle a r).lowestFree = s.lowestFree := rfl

/-! ## setGroup -/

@[simp] theorem State.line_setGroup (s : State) (g : Fin 16) (r : Group) (e : Fin 8) : (s.setGroup g r).line e = s.line e := rfl

@[simp] theorem State.aisle_setGroup (s : State) (g : Fin 16) (r : Group) (e : Fin 16) : (s.setGroup g r).aisle e = s.aisle e := rfl

@[simp] theorem State.job_setGroup (s : State) (g : Fin 16) (r : Group) (e : Nat) : (s.setGroup g r).job e = s.job e := rfl

@[simp] theorem State.slot_setGroup (s : State) (g : Fin 16) (r : Group) (e : Fin 16) (p : SlotPos) : (s.setGroup g r).slot e p = s.slot e p := rfl

@[simp] theorem State.byTag_setGroup (s : State) (g : Fin 16) (r : Group) (e : Nat) : (s.setGroup g r).byTag e = s.byTag e := rfl

@[simp] theorem State.holdsLock_setGroup (s : State) (g : Fin 16) (r : Group) (e : Fin 8) (y : Fin 16) : (s.setGroup g r).holdsLock e y = s.holdsLock e y := rfl

@[simp] theorem State.strandedTrip_setGroup (s : State) (g : Fin 16) (r : Group) (e : Fin 8) (n : Nat) : (s.setGroup g r).strandedTrip e n = s.strandedTrip e n := rfl

@[simp] theorem State.lowestFree_setGroup (s : State) (g : Fin 16) (r : Group) : (s.setGroup g r).lowestFree = s.lowestFree := rfl

@[simp] theorem State.doubleDeep_setGroup (s : State) (g : Fin 16) (r : Group) (e : Fin 16) : (s.setGroup g r).doubleDeep e = s.doubleDeep e := rfl

/-! ## setJob -/

@[simp] theorem State.line_setJob (s : State) (i : Nat) (j : Job) (e : Fin 8) : (s.setJob i j).line e = s.line e := rfl

@[simp] theorem State.aisle_setJob (s : State) (i : Nat) (j : Job) (e : Fin 16) : (s.setJob i j).aisle e = s.aisle e := rfl

@[simp] theorem State.group_setJob (s : State) (i : Nat) (j : Job) (e : Fin 16) : (s.setJob i j).group e = s.group e := rfl

@[simp] theorem State.slot_setJob (s : State) (i : Nat) (j : Job) (e : Fin 16) (p : SlotPos) : (s.setJob i j).slot e p = s.slot e p := rfl

@[simp] theorem State.holdsLock_setJob (s : State) (i : Nat) (j : Job) (e : Fin 8) (y : Fin 16) : (s.setJob i j).holdsLock e y = s.holdsLock e y := rfl

@[simp] theorem State.doubleDeep_setJob (s : State) (i : Nat) (j : Job) (e : Fin 16) : (s.setJob i j).doubleDeep e = s.doubleDeep e := rfl

/-! ## updateCar -/

@[simp] theorem State.line_updateCar (s : State) (f : Car → Car) (e : Fin 8) : (s.updateCar f).line e = s.line e := rfl

@[simp] theorem State.aisle_updateCar (s : State) (f : Car → Car) (e : Fin 16) : (s.updateCar f).aisle e = s.aisle e := rfl

@[simp] theorem State.group_updateCar (s : State) (f : Car → Car) (e : Fin 16) : (s.updateCar f).group e = s.group e := rfl

@[simp] theorem State.job_updateCar (s : State) (f : Car → Car) (e : Nat) : (s.updateCar f).job e = s.job e := rfl

@[simp] theorem State.slot_updateCar (s : State) (f : Car → Car) (e : Fin 16) (p : SlotPos) : (s.updateCar f).slot e p = s.slot e p := rfl

@[simp] theorem State.byTag_updateCar (s : State) (f : Car → Car) (e : Nat) : (s.updateCar f).byTag e = s.byTag e := rfl

@[simp] theorem State.holdsLock_updateCar (s : State) (f : Car → Car) (e : Fin 8) (y : Fin 16) : (s.updateCar f).holdsLock e y = s.holdsLock e y := rfl

@[simp] theorem State.strandedTrip_updateCar (s : State) (f : Car → Car) (e : Fin 8) (n : Nat) : (s.updateCar f).strandedTrip e n = s.strandedTrip e n := rfl

@[simp] theorem State.lowestFree_updateCar (s : State) (f : Car → Car) : (s.updateCar f).lowestFree = s.lowestFree := rfl

@[simp] theorem State.doubleDeep_updateCar (s : State) (f : Car → Car) (e : Fin 16) : (s.updateCar f).doubleDeep e = s.doubleDeep e := rfl

/-! ## raise -/

@[simp] theorem State.line_raise (s : State) (x : Alert) (e : Fin 8) : (s.raise x).line e = s.line e := rfl

@[simp] theorem State.aisle_raise (s : State) (x : Alert) (e : Fin 16) : (s.raise x).aisle e = s.aisle e := rfl

@[simp] theorem State.group_raise (s : State) (x : Alert) (e : Fin 16) : (s.raise x).group e = s.group e := rfl

@[simp] theorem State.job_raise (s : State) (x : Alert) (e : Nat) : (s.raise x).job e = s.job e := rfl

@[simp] theorem State.slot_raise (s : State) (x : Alert) (e : Fin 16) (p : SlotPos) : (s.raise x).slot e p = s.slot e p := rfl

@[simp] theorem State.byTag_raise (s : State) (x : Alert) (e : Nat) : (s.raise x).byTag e = s.byTag e := rfl

@[simp] theorem State.holdsLock_raise (s : State) (x : Alert) (e : Fin 8) (y : Fin 16) : (s.raise x).holdsLock e y = s.holdsLock e y := rfl

@[simp] theorem State.strandedTrip_raise (s : State) (x : Alert) (e : Fin 8) (n : Nat) : (s.raise x).strandedTrip e n = s.strandedTrip e n := rfl

@[simp] theorem State.lowestFree_raise (s : State) (x : Alert) : (s.raise x).lowestFree = s.lowestFree := rfl

@[simp] theorem State.doubleDeep_raise (s : State) (x : Alert) (e : Fin 16) : (s.raise x).doubleDeep e = s.doubleDeep e := rfl

/-! ## answer -/

@[simp] theorem State.line_answer (s : State) (r : Request) (x : Status) (b : List Byte) (e : Fin 8) : (s.answer r x b).line e = s.line e := rfl

@[simp] theorem State.aisle_answer (s : State) (r : Request) (x : Status) (b : List Byte) (e : Fin 16) : (s.answer r x b).aisle e = s.aisle e := rfl

@[simp] theorem State.group_answer (s : State) (r : Request) (x : Status) (b : List Byte) (e : Fin 16) : (s.answer r x b).group e = s.group e := rfl

@[simp] theorem State.job_answer (s : State) (r : Request) (x : Status) (b : List Byte) (e : Nat) : (s.answer r x b).job e = s.job e := rfl

@[simp] theorem State.slot_answer (s : State) (r : Request) (x : Status) (b : List Byte) (e : Fin 16) (p : SlotPos) : (s.answer r x b).slot e p = s.slot e p := rfl

@[simp] theorem State.byTag_answer (s : State) (r : Request) (x : Status) (b : List Byte) (e : Nat) : (s.answer r x b).byTag e = s.byTag e := rfl

@[simp] theorem State.holdsLock_answer (s : State) (r : Request) (x : Status) (b : List Byte) (e : Fin 8) (y : Fin 16) : (s.answer r x b).holdsLock e y = s.holdsLock e y := rfl

@[simp] theorem State.strandedTrip_answer (s : State) (r : Request) (x : Status) (b : List Byte) (e : Fin 8) (n : Nat) : (s.answer r x b).strandedTrip e n = s.strandedTrip e n := rfl

@[simp] theorem State.lowestFree_answer (s : State) (r : Request) (x : Status) (b : List Byte) : (s.answer r x b).lowestFree = s.lowestFree := rfl

@[simp] theorem State.doubleDeep_answer (s : State) (r : Request) (x : Status) (b : List Byte) (e : Fin 16) : (s.answer r x b).doubleDeep e = s.doubleDeep e := rfl

/-! ## popRequest -/

@[simp] theorem State.line_popRequest (s : State) (e : Fin 8) : (s.popRequest).line e = s.line e := rfl

@[simp] theorem State.aisle_popRequest (s : State) (e : Fin 16) : (s.popRequest).aisle e = s.aisle e := rfl

@[simp] theorem State.group_popRequest (s : State) (e : Fin 16) : (s.popRequest).group e = s.group e := rfl

@[simp] theorem State.job_popRequest (s : State) (e : Nat) : (s.popRequest).job e = s.job e := rfl

@[simp] theorem State.slot_popRequest (s : State) (e : Fin 16) (p : SlotPos) : (s.popRequest).slot e p = s.slot e p := rfl

@[simp] theorem State.byTag_popRequest (s : State) (e : Nat) : (s.popRequest).byTag e = s.byTag e := rfl

@[simp] theorem State.holdsLock_popRequest (s : State) (e : Fin 8) (y : Fin 16) : (s.popRequest).holdsLock e y = s.holdsLock e y := rfl

@[simp] theorem State.strandedTrip_popRequest (s : State) (e : Fin 8) (n : Nat) : (s.popRequest).strandedTrip e n = s.strandedTrip e n := rfl

@[simp] theorem State.lowestFree_popRequest (s : State) : (s.popRequest).lowestFree = s.lowestFree := rfl

@[simp] theorem State.doubleDeep_popRequest (s : State) (e : Fin 16) : (s.popRequest).doubleDeep e = s.doubleDeep e := rfl

/-! ## tellDispatcher -/

@[simp] theorem State.line_tellDispatcher (s : State) (e : Fin 8) : (s.tellDispatcher).line e = s.line e := rfl

@[simp] theorem State.aisle_tellDispatcher (s : State) (e : Fin 16) : (s.tellDispatcher).aisle e = s.aisle e := rfl

@[simp] theorem State.group_tellDispatcher (s : State) (e : Fin 16) : (s.tellDispatcher).group e = s.group e := rfl

@[simp] theorem State.job_tellDispatcher (s : State) (e : Nat) : (s.tellDispatcher).job e = s.job e := rfl

@[simp] theorem State.slot_tellDispatcher (s : State) (e : Fin 16) (p : SlotPos) : (s.tellDispatcher).slot e p = s.slot e p := rfl

@[simp] theorem State.byTag_tellDispatcher (s : State) (e : Nat) : (s.tellDispatcher).byTag e = s.byTag e := rfl

@[simp] theorem State.holdsLock_tellDispatcher (s : State) (e : Fin 8) (y : Fin 16) : (s.tellDispatcher).holdsLock e y = s.holdsLock e y := rfl

@[simp] theorem State.strandedTrip_tellDispatcher (s : State) (e : Fin 8) (n : Nat) : (s.tellDispatcher).strandedTrip e n = s.strandedTrip e n := rfl

@[simp] theorem State.lowestFree_tellDispatcher (s : State) : (s.tellDispatcher).lowestFree = s.lowestFree := rfl

@[simp] theorem State.doubleDeep_tellDispatcher (s : State) (e : Fin 16) : (s.tellDispatcher).doubleDeep e = s.doubleDeep e := rfl

/-! ## noteInput -/

@[simp] theorem State.line_noteInput (s : State) (c : Fin 8) (n : Nat) (e : Fin 8) : (s.noteInput c n).line e = s.line e := rfl

@[simp] theorem State.aisle_noteInput (s : State) (c : Fin 8) (n : Nat) (e : Fin 16) : (s.noteInput c n).aisle e = s.aisle e := rfl

@[simp] theorem State.group_noteInput (s : State) (c : Fin 8) (n : Nat) (e : Fin 16) : (s.noteInput c n).group e = s.group e := rfl

@[simp] theorem State.job_noteInput (s : State) (c : Fin 8) (n : Nat) (e : Nat) : (s.noteInput c n).job e = s.job e := rfl

@[simp] theorem State.slot_noteInput (s : State) (c : Fin 8) (n : Nat) (e : Fin 16) (p : SlotPos) : (s.noteInput c n).slot e p = s.slot e p := rfl

@[simp] theorem State.byTag_noteInput (s : State) (c : Fin 8) (n : Nat) (e : Nat) : (s.noteInput c n).byTag e = s.byTag e := rfl

@[simp] theorem State.holdsLock_noteInput (s : State) (c : Fin 8) (n : Nat) (e : Fin 8) (y : Fin 16) : (s.noteInput c n).holdsLock e y = s.holdsLock e y := rfl

@[simp] theorem State.strandedTrip_noteInput (s : State) (c : Fin 8) (n : Nat) (e : Fin 8) (m : Nat) : (s.noteInput c n).strandedTrip e m = s.strandedTrip e m := rfl

@[simp] theorem State.lowestFree_noteInput (s : State) (c : Fin 8) (n : Nat) : (s.noteInput c n).lowestFree = s.lowestFree := rfl

@[simp] theorem State.doubleDeep_noteInput (s : State) (c : Fin 8) (n : Nat) (e : Fin 16) : (s.noteInput c n).doubleDeep e = s.doubleDeep e := rfl

/-! ## noteLine -/

@[simp] theorem State.line_noteLine (s : State) (c : Fin 8) (e : Fin 8) : (s.noteLine c).line e = s.line e := rfl

@[simp] theorem State.aisle_noteLine (s : State) (c : Fin 8) (e : Fin 16) : (s.noteLine c).aisle e = s.aisle e := rfl

@[simp] theorem State.group_noteLine (s : State) (c : Fin 8) (e : Fin 16) : (s.noteLine c).group e = s.group e := rfl

@[simp] theorem State.job_noteLine (s : State) (c : Fin 8) (e : Nat) : (s.noteLine c).job e = s.job e := rfl

@[simp] theorem State.slot_noteLine (s : State) (c : Fin 8) (e : Fin 16) (p : SlotPos) : (s.noteLine c).slot e p = s.slot e p := rfl

@[simp] theorem State.byTag_noteLine (s : State) (c : Fin 8) (e : Nat) : (s.noteLine c).byTag e = s.byTag e := rfl

@[simp] theorem State.holdsLock_noteLine (s : State) (c : Fin 8) (e : Fin 8) (y : Fin 16) : (s.noteLine c).holdsLock e y = s.holdsLock e y := rfl

@[simp] theorem State.strandedTrip_noteLine (s : State) (c : Fin 8) (e : Fin 8) (n : Nat) : (s.noteLine c).strandedTrip e n = s.strandedTrip e n := rfl

@[simp] theorem State.lowestFree_noteLine (s : State) (c : Fin 8) : (s.noteLine c).lowestFree = s.lowestFree := rfl

@[simp] theorem State.doubleDeep_noteLine (s : State) (c : Fin 8) (e : Fin 16) : (s.noteLine c).doubleDeep e = s.doubleDeep e := rfl

/-! ## noteOwn -/

@[simp] theorem State.line_noteOwn (s : State) (i : Nat) (e : Fin 8) : (s.noteOwn i).line e = s.line e := rfl

@[simp] theorem State.aisle_noteOwn (s : State) (i : Nat) (e : Fin 16) : (s.noteOwn i).aisle e = s.aisle e := rfl

@[simp] theorem State.group_noteOwn (s : State) (i : Nat) (e : Fin 16) : (s.noteOwn i).group e = s.group e := rfl

@[simp] theorem State.job_noteOwn (s : State) (i : Nat) (e : Nat) : (s.noteOwn i).job e = s.job e := rfl

@[simp] theorem State.slot_noteOwn (s : State) (i : Nat) (e : Fin 16) (p : SlotPos) : (s.noteOwn i).slot e p = s.slot e p := rfl

@[simp] theorem State.byTag_noteOwn (s : State) (i : Nat) (e : Nat) : (s.noteOwn i).byTag e = s.byTag e := rfl

@[simp] theorem State.holdsLock_noteOwn (s : State) (i : Nat) (e : Fin 8) (y : Fin 16) : (s.noteOwn i).holdsLock e y = s.holdsLock e y := rfl

@[simp] theorem State.strandedTrip_noteOwn (s : State) (i : Nat) (e : Fin 8) (n : Nat) : (s.noteOwn i).strandedTrip e n = s.strandedTrip e n := rfl

@[simp] theorem State.lowestFree_noteOwn (s : State) (i : Nat) : (s.noteOwn i).lowestFree = s.lowestFree := rfl

@[simp] theorem State.doubleDeep_noteOwn (s : State) (i : Nat) (e : Fin 16) : (s.noteOwn i).doubleDeep e = s.doubleDeep e := rfl

/-! ## noteInputs -/

@[simp] theorem State.line_noteInputs (s : State) (c : Fin 8) (k n : Nat) (e : Fin 8) : (s.noteInputs c k n).line e = s.line e := by
  obtain ⟨_, h⟩ := State.noteInputs_cases s c k n
  rw [h]; rfl

@[simp] theorem State.aisle_noteInputs (s : State) (c : Fin 8) (k n : Nat) (e : Fin 16) : (s.noteInputs c k n).aisle e = s.aisle e := by
  obtain ⟨_, h⟩ := State.noteInputs_cases s c k n
  rw [h]; rfl

@[simp] theorem State.group_noteInputs (s : State) (c : Fin 8) (k n : Nat) (e : Fin 16) : (s.noteInputs c k n).group e = s.group e := by
  obtain ⟨_, h⟩ := State.noteInputs_cases s c k n
  rw [h]; rfl

@[simp] theorem State.job_noteInputs (s : State) (c : Fin 8) (k n : Nat) (e : Nat) : (s.noteInputs c k n).job e = s.job e := by
  obtain ⟨_, h⟩ := State.noteInputs_cases s c k n
  rw [h]; rfl

@[simp] theorem State.slot_noteInputs (s : State) (c : Fin 8) (k n : Nat) (e : Fin 16) (p : SlotPos) : (s.noteInputs c k n).slot e p = s.slot e p := by
  obtain ⟨_, h⟩ := State.noteInputs_cases s c k n
  rw [h]; rfl

@[simp] theorem State.byTag_noteInputs (s : State) (c : Fin 8) (k n : Nat) (e : Nat) : (s.noteInputs c k n).byTag e = s.byTag e := by
  obtain ⟨_, h⟩ := State.noteInputs_cases s c k n
  rw [h]; rfl

@[simp] theorem State.holdsLock_noteInputs (s : State) (c : Fin 8) (k n : Nat) (e : Fin 8) (y : Fin 16) : (s.noteInputs c k n).holdsLock e y = s.holdsLock e y := by
  obtain ⟨_, h⟩ := State.noteInputs_cases s c k n
  rw [h]; rfl

@[simp] theorem State.strandedTrip_noteInputs (s : State) (c : Fin 8) (k n : Nat) (e : Fin 8) (m : Nat) : (s.noteInputs c k n).strandedTrip e m = s.strandedTrip e m := by
  obtain ⟨_, h⟩ := State.noteInputs_cases s c k n
  rw [h]; rfl

@[simp] theorem State.lowestFree_noteInputs (s : State) (c : Fin 8) (k n : Nat) : (s.noteInputs c k n).lowestFree = s.lowestFree := by
  obtain ⟨_, h⟩ := State.noteInputs_cases s c k n
  rw [h]; rfl

@[simp] theorem State.doubleDeep_noteInputs (s : State) (c : Fin 8) (k n : Nat) (e : Fin 16) : (s.noteInputs c k n).doubleDeep e = s.doubleDeep e := by
  obtain ⟨_, h⟩ := State.noteInputs_cases s c k n
  rw [h]; rfl

/-! ## collect -/

@[simp] theorem State.line_collect (s : State) (js : List Nat) (e : Fin 8) : (s.collect js).line e = s.line e := rfl

@[simp] theorem State.aisle_collect (s : State) (js : List Nat) (e : Fin 16) : (s.collect js).aisle e = s.aisle e := rfl

@[simp] theorem State.group_collect (s : State) (js : List Nat) (e : Fin 16) : (s.collect js).group e = s.group e := rfl

@[simp] theorem State.job_collect (s : State) (js : List Nat) (e : Nat) : (s.collect js).job e = s.job e := rfl

@[simp] theorem State.slot_collect (s : State) (js : List Nat) (e : Fin 16) (p : SlotPos) : (s.collect js).slot e p = s.slot e p := rfl

@[simp] theorem State.byTag_collect (s : State) (js : List Nat) (e : Nat) : (s.collect js).byTag e = s.byTag e := rfl

@[simp] theorem State.holdsLock_collect (s : State) (js : List Nat) (e : Fin 8) (y : Fin 16) : (s.collect js).holdsLock e y = s.holdsLock e y := rfl

@[simp] theorem State.strandedTrip_collect (s : State) (js : List Nat) (e : Fin 8) (n : Nat) : (s.collect js).strandedTrip e n = s.strandedTrip e n := rfl

@[simp] theorem State.lowestFree_collect (s : State) (js : List Nat) : (s.collect js).lowestFree = s.lowestFree := rfl

@[simp] theorem State.doubleDeep_collect (s : State) (js : List Nat) (e : Fin 16) : (s.collect js).doubleDeep e = s.doubleDeep e := rfl

/-! ## Writes of lines stand innermost -/

@[simp] theorem State.setLine_setLine (s : State) (c : Fin 8) (k l : Line) :
    (s.setLine c k).setLine c l = s.setLine c l := by simp [State.setLine]

@[simp] theorem State.setLine_line (s : State) (c : Fin 8) : s.setLine c (s.line c) = s := by
  cases s; simp [State.setLine, State.line, Vector.get]

@[simp] theorem State.setAisle_setAisle (s : State) (a : Fin 16) (q r : Aisle) :
    (s.setAisle a q).setAisle a r = s.setAisle a r := by simp [State.setAisle]

@[simp] theorem State.setAisle_aisle (s : State) (a : Fin 16) : s.setAisle a (s.aisle a) = s := by
  cases s; simp [State.setAisle, State.aisle, Vector.get]

@[simp] theorem State.setGroup_setGroup (s : State) (g : Fin 16) (q r : Group) :
    (s.setGroup g q).setGroup g r = s.setGroup g r := by simp [State.setGroup]

@[simp] theorem State.setAisle_setLine_comm (s : State) (a : Fin 16) (r : Aisle) (c : Fin 8) (l : Line) :
    (s.setAisle a r).setLine c l = (s.setLine c l).setAisle a r := rfl

@[simp] theorem State.setGroup_setLine_comm (s : State) (g : Fin 16) (r : Group) (c : Fin 8) (l : Line) :
    (s.setGroup g r).setLine c l = (s.setLine c l).setGroup g r := rfl

@[simp] theorem State.setJob_setLine_comm (s : State) (i : Nat) (j : Job) (c : Fin 8) (l : Line) :
    (s.setJob i j).setLine c l = (s.setLine c l).setJob i j := rfl

@[simp] theorem State.updateCar_setLine_comm (s : State) (f : Car → Car) (c : Fin 8) (l : Line) :
    (s.updateCar f).setLine c l = (s.setLine c l).updateCar f := rfl

@[simp] theorem State.raise_setLine_comm (s : State) (x : Alert) (c : Fin 8) (l : Line) :
    (s.raise x).setLine c l = (s.setLine c l).raise x := rfl

@[simp] theorem State.answer_setLine_comm (s : State) (r : Request) (x : Status) (b : List Byte) (c : Fin 8) (l : Line) :
    (s.answer r x b).setLine c l = (s.setLine c l).answer r x b := rfl

@[simp] theorem State.popRequest_setLine_comm (s : State) (c : Fin 8) (l : Line) :
    (s.popRequest).setLine c l = (s.setLine c l).popRequest := rfl

@[simp] theorem State.tellDispatcher_setLine_comm (s : State) (c : Fin 8) (l : Line) :
    (s.tellDispatcher).setLine c l = (s.setLine c l).tellDispatcher := rfl

@[simp] theorem State.noteInput_setLine_comm (s : State) (d : Fin 8) (n : Nat) (c : Fin 8) (l : Line) :
    (s.noteInput d n).setLine c l = (s.setLine c l).noteInput d n := rfl

@[simp] theorem State.noteLine_setLine_comm (s : State) (d : Fin 8) (c : Fin 8) (l : Line) :
    (s.noteLine d).setLine c l = (s.setLine c l).noteLine d := rfl

@[simp] theorem State.noteOwn_setLine_comm (s : State) (i : Nat) (c : Fin 8) (l : Line) :
    (s.noteOwn i).setLine c l = (s.setLine c l).noteOwn i := rfl

@[simp] theorem State.noteInputs_setLine_comm (s : State) (d : Fin 8) (k n : Nat) (c : Fin 8) (l : Line) :
    (s.noteInputs d k n).setLine c l = (s.setLine c l).noteInputs d k n := State.noteInputs_push _ _ _ _ (fun t => t.setLine c l) (fun _ => rfl)

@[simp] theorem State.collect_setLine_comm (s : State) (js : List Nat) (c : Fin 8) (l : Line) :
    (s.collect js).setLine c l = (s.setLine c l).collect js := rfl

@[simp] theorem State.setJob_setAisle_comm (s : State) (i : Nat) (j : Job) (a : Fin 16) (r : Aisle) :
    (s.setJob i j).setAisle a r = (s.setAisle a r).setJob i j := rfl

@[simp] theorem State.updateCar_setAisle_comm (s : State) (f : Car → Car) (a : Fin 16) (r : Aisle) :
    (s.updateCar f).setAisle a r = (s.setAisle a r).updateCar f := rfl

@[simp] theorem State.raise_setAisle_comm (s : State) (x : Alert) (a : Fin 16) (r : Aisle) :
    (s.raise x).setAisle a r = (s.setAisle a r).raise x := rfl

@[simp] theorem State.answer_setAisle_comm (s : State) (q : Request) (x : Status) (b : List Byte) (a : Fin 16) (r : Aisle) :
    (s.answer q x b).setAisle a r = (s.setAisle a r).answer q x b := rfl

@[simp] theorem State.popRequest_setAisle_comm (s : State) (a : Fin 16) (r : Aisle) :
    (s.popRequest).setAisle a r = (s.setAisle a r).popRequest := rfl

@[simp] theorem State.tellDispatcher_setAisle_comm (s : State) (a : Fin 16) (r : Aisle) :
    (s.tellDispatcher).setAisle a r = (s.setAisle a r).tellDispatcher := rfl

@[simp] theorem State.noteInput_setAisle_comm (s : State) (c : Fin 8) (n : Nat) (a : Fin 16) (r : Aisle) :
    (s.noteInput c n).setAisle a r = (s.setAisle a r).noteInput c n := rfl

@[simp] theorem State.noteLine_setAisle_comm (s : State) (c : Fin 8) (a : Fin 16) (r : Aisle) :
    (s.noteLine c).setAisle a r = (s.setAisle a r).noteLine c := rfl

@[simp] theorem State.noteOwn_setAisle_comm (s : State) (i : Nat) (a : Fin 16) (r : Aisle) :
    (s.noteOwn i).setAisle a r = (s.setAisle a r).noteOwn i := rfl

@[simp] theorem State.noteInputs_setAisle_comm (s : State) (c : Fin 8) (k n : Nat) (a : Fin 16) (r : Aisle) :
    (s.noteInputs c k n).setAisle a r = (s.setAisle a r).noteInputs c k n := State.noteInputs_push _ _ _ _ (fun t => t.setAisle a r) (fun _ => rfl)

@[simp] theorem State.collect_setAisle_comm (s : State) (js : List Nat) (a : Fin 16) (r : Aisle) :
    (s.collect js).setAisle a r = (s.setAisle a r).collect js := rfl

@[simp] theorem State.updateCar_setJob_comm (s : State) (f : Car → Car) (i : Nat) (j : Job) :
    (s.updateCar f).setJob i j = (s.setJob i j).updateCar f := rfl

@[simp] theorem State.raise_setJob_comm (s : State) (x : Alert) (i : Nat) (j : Job) :
    (s.raise x).setJob i j = (s.setJob i j).raise x := rfl

@[simp] theorem State.answer_setJob_comm (s : State) (r : Request) (x : Status) (b : List Byte) (i : Nat) (j : Job) :
    (s.answer r x b).setJob i j = (s.setJob i j).answer r x b := rfl

@[simp] theorem State.popRequest_setJob_comm (s : State) (i : Nat) (j : Job) :
    (s.popRequest).setJob i j = (s.setJob i j).popRequest := rfl

@[simp] theorem State.tellDispatcher_setJob_comm (s : State) (i : Nat) (j : Job) :
    (s.tellDispatcher).setJob i j = (s.setJob i j).tellDispatcher := rfl

@[simp] theorem State.noteInput_setJob_comm (s : State) (c : Fin 8) (n : Nat) (i : Nat) (j : Job) :
    (s.noteInput c n).setJob i j = (s.setJob i j).noteInput c n := rfl

@[simp] theorem State.noteLine_setJob_comm (s : State) (c : Fin 8) (i : Nat) (j : Job) :
    (s.noteLine c).setJob i j = (s.setJob i j).noteLine c := rfl

@[simp] theorem State.noteOwn_setJob_comm (s : State) (k : Nat) (i : Nat) (j : Job) :
    (s.noteOwn k).setJob i j = (s.setJob i j).noteOwn k := rfl

@[simp] theorem State.noteInputs_setJob_comm (s : State) (c : Fin 8) (k n : Nat) (i : Nat) (j : Job) :
    (s.noteInputs c k n).setJob i j = (s.setJob i j).noteInputs c k n := State.noteInputs_push _ _ _ _ (fun t => t.setJob i j) (fun _ => rfl)

@[simp] theorem State.collect_setJob_comm (s : State) (is : List Nat) (i : Nat) (j : Job) :
    (s.collect is).setJob i j = (s.setJob i j).collect is := rfl

@[simp] theorem State.raise_updateCar_comm (s : State) (x : Alert) (f : Car → Car) :
    (s.raise x).updateCar f = (s.updateCar f).raise x := rfl

@[simp] theorem State.answer_updateCar_comm (s : State) (r : Request) (x : Status) (b : List Byte) (f : Car → Car) :
    (s.answer r x b).updateCar f = (s.updateCar f).answer r x b := rfl

@[simp] theorem State.popRequest_updateCar_comm (s : State) (f : Car → Car) :
    (s.popRequest).updateCar f = (s.updateCar f).popRequest := rfl

@[simp] theorem State.tellDispatcher_updateCar_comm (s : State) (f : Car → Car) :
    (s.tellDispatcher).updateCar f = (s.updateCar f).tellDispatcher := rfl

@[simp] theorem State.noteInput_updateCar_comm (s : State) (c : Fin 8) (n : Nat) (f : Car → Car) :
    (s.noteInput c n).updateCar f = (s.updateCar f).noteInput c n := rfl

@[simp] theorem State.noteLine_updateCar_comm (s : State) (c : Fin 8) (f : Car → Car) :
    (s.noteLine c).updateCar f = (s.updateCar f).noteLine c := rfl

@[simp] theorem State.noteOwn_updateCar_comm (s : State) (i : Nat) (f : Car → Car) :
    (s.noteOwn i).updateCar f = (s.updateCar f).noteOwn i := rfl

@[simp] theorem State.noteInputs_updateCar_comm (s : State) (c : Fin 8) (k n : Nat) (f : Car → Car) :
    (s.noteInputs c k n).updateCar f = (s.updateCar f).noteInputs c k n := State.noteInputs_push _ _ _ _ (fun t => t.updateCar f) (fun _ => rfl)

@[simp] theorem State.collect_updateCar_comm (s : State) (js : List Nat) (f : Car → Car) :
    (s.collect js).updateCar f = (s.updateCar f).collect js := rfl

@[simp] theorem State.tellDispatcher_raise_comm (s : State) (x : Alert) :
    (s.tellDispatcher).raise x = (s.raise x).tellDispatcher := rfl

@[simp] theorem State.noteInput_raise_comm (s : State) (c : Fin 8) (n : Nat) (x : Alert) :
    (s.noteInput c n).raise x = (s.raise x).noteInput c n := rfl

@[simp] theorem State.noteInput_tellDispatcher_comm (s : State) (c : Fin 8) (n : Nat) :
    (s.noteInput c n).tellDispatcher = s.tellDispatcher.noteInput c n := rfl

@[simp] theorem State.noteLine_raise_comm (s : State) (c : Fin 8) (x : Alert) :
    (s.noteLine c).raise x = (s.raise x).noteLine c := rfl

@[simp] theorem State.noteLine_tellDispatcher_comm (s : State) (c : Fin 8) :
    (s.noteLine c).tellDispatcher = s.tellDispatcher.noteLine c := rfl

@[simp] theorem State.noteOwn_raise_comm (s : State) (i : Nat) (x : Alert) :
    (s.noteOwn i).raise x = (s.raise x).noteOwn i := rfl

@[simp] theorem State.noteOwn_tellDispatcher_comm (s : State) (i : Nat) :
    (s.noteOwn i).tellDispatcher = s.tellDispatcher.noteOwn i := rfl

@[simp] theorem State.noteInputs_raise_comm (s : State) (c : Fin 8) (k n : Nat) (x : Alert) :
    (s.noteInputs c k n).raise x = (s.raise x).noteInputs c k n := State.noteInputs_push _ _ _ _ (fun t => t.raise x) (fun _ => rfl)

@[simp] theorem State.noteInputs_tellDispatcher_comm (s : State) (c : Fin 8) (k n : Nat) :
    (s.noteInputs c k n).tellDispatcher = s.tellDispatcher.noteInputs c k n := State.noteInputs_push _ _ _ _ (fun t => t.tellDispatcher) (fun _ => rfl)

@[simp] theorem State.collect_raise_comm (s : State) (js : List Nat) (x : Alert) :
    (s.collect js).raise x = (s.raise x).collect js := rfl

@[simp] theorem State.collect_tellDispatcher_comm (s : State) (js : List Nat) :
    (s.collect js).tellDispatcher = s.tellDispatcher.collect js := rfl

/-- Writing one record twice leaves the last. -/
theorem insertKey_insertKey {α : Type} (k : Nat) (v w : α) (l : List (Nat × α)) :
    insertKey k w (insertKey k v l) = insertKey k w l := by
  induction l with
  | nil => simp [insertKey]
  | cons e rest ih =>
    obtain ⟨k', v'⟩ := e
    simp only [insertKey]
    split
    · simp [insertKey]
    · split
      · simp [insertKey]
      · simp [insertKey, *]

@[simp] theorem State.setJob_setJob (s : State) (i : Nat) (j k : Job) : (s.setJob i j).setJob i k = s.setJob i k := by
  simp [State.setJob, insertKey_insertKey]

/-- A write of a line goes through to the state without what the end of an event may change. -/
theorem State.bare_setLine (s : State) (c : Fin 8) (l : Line) : (s.setLine c l).bare = s.bare.setLine c l.bare := by
  have h : (s.lines.set c.val l c.isLt).map Line.bare = (s.lines.map Line.bare).set c.val l.bare c.isLt := by
    apply Vector.ext
    intro i hi
    simp only [Vector.getElem_map, Vector.getElem_set]
    split <;> rfl
  simp only [State.bare, State.setLine, h]

end Sys2Proof.Machine
end

