-- ==== Sys2Proof/Laws/Invariants.lean ====
section
/-! SUPPORT. What the invariants of Safety.lean say, part by part, and that the record moves of Ops.lean keep them: the
first law (R5) under writing, taking and freeing a record, and the one form of the Slot Map under every slot change. -/

namespace Sys2Proof.Machine

/-! ## The first law (R5) -/

/-- The first law, part by part. -/
theorem State.tableLaw_iff (s : State) : s.tableLaw = true ↔ rising s.jobs = true ∧ (∀ e ∈ s.jobs, e.1 < 512) ∧
    s.freeCount + s.jobs.length = 512 ∧ (s.jobs.filter (fun e => e.2.kind != .relocate)).length ≤ 480 := by
  simp [State.tableLaw, and_assoc]

/-- The first law reads the records and the FREE count alone. -/
theorem State.tableLaw_congr (s t : State) (h : t.jobs = s.jobs) (g : t.freeCount = s.freeCount) :
    t.tableLaw = s.tableLaw := by
  unfold State.tableLaw; rw [h, g]

theorem lookup_of_mem {α : Type} (k : Nat) (v : α) (l : List (Nat × α)) (h : rising l = true) (m : (k, v) ∈ l) :
    lookup k l = some v := by
  induction l with
  | nil => cases m
  | cons e rest ih =>
    obtain ⟨ha, hr⟩ := (rising_cons _ _).1 h
    rcases List.mem_cons.1 m with rfl | m
    · simp [lookup]
    · have := ha _ m
      simp only [lookup]
      rw [if_neg (by simp at this ⊢; omega), ih hr m]

theorem mem_of_lookup {α : Type} (k : Nat) (v : α) (l : List (Nat × α)) (h : lookup k l = some v) : (k, v) ∈ l := by
  induction l with
  | nil => cases h
  | cons e rest ih =>
    simp only [lookup] at h
    split at h
    · cases h; rename_i h; simp [h]
    · exact List.mem_cons_of_mem _ (ih h)

theorem lookup_of_allAbove {α : Type} (k : Nat) (l : List (Nat × α)) (h : allAbove k l) : lookup k l = none := by
  induction l with
  | nil => rfl
  | cons e rest ih =>
    have := h e (by simp)
    simp only [lookup]
    rw [if_neg (by omega), ih (fun x hx => h x (by simp [hx]))]

/-- Under rising keys a record is read by its key exactly when the list holds it. -/
theorem lookup_iff_mem {α : Type} (k : Nat) (v : α) (l : List (Nat × α)) (h : rising l = true) :
    lookup k l = some v ↔ (k, v) ∈ l := ⟨mem_of_lookup k v l, lookup_of_mem k v l h⟩

theorem insertKey_of_allAbove {α : Type} (k : Nat) (v : α) (l : List (Nat × α)) (h : allAbove k l) :
    insertKey k v l = (k, v) :: l := by
  cases l with
  | nil => rfl
  | cons e rest => simp only [insertKey]; rw [if_pos (h e (by simp))]

/-- Writing over a record keeps the list's length. -/
theorem length_insertKey_old {α : Type} (k : Nat) (v w : α) (l : List (Nat × α)) (h : rising l = true)
    (m : lookup k l = some w) : (insertKey k v l).length = l.length := by
  induction l with
  | nil => cases m
  | cons e rest ih =>
    obtain ⟨ha, hr⟩ := (rising_cons _ _).1 h
    simp only [lookup] at m
    simp only [insertKey]
    split at m
    · rename_i hk; rw [if_neg (by omega), if_pos hk]; rfl
    · rename_i hk
      have hm := ha _ (mem_of_lookup k w rest m)
      rw [if_neg (by simp at hm; omega), if_neg hk, List.length_cons, ih hr m, List.length_cons]

/-- Writing a record that the list does not hold makes it one longer. -/
theorem length_insertKey_new {α : Type} (k : Nat) (v : α) (l : List (Nat × α)) (m : lookup k l = none) :
    (insertKey k v l).length = l.length + 1 := by
  induction l with
  | nil => rfl
  | cons e rest ih =>
    simp only [lookup] at m
    simp only [insertKey]
    split at m
    · cases m
    · rename_i hk
      split
      · rfl
      · rw [List.length_cons, ih m, List.length_cons]

/-- Removing a record that a rising list holds makes it one shorter. -/
theorem length_removeKey {α : Type} (k : Nat) (w : α) (l : List (Nat × α)) (h : rising l = true)
    (m : lookup k l = some w) : (removeKey k l).length + 1 = l.length := by
  have same : ∀ l : List (Nat × α), allAbove k l → removeKey k l = l := by
    intro l
    induction l with
    | nil => intro; rfl
    | cons e rest ih =>
      intro ha
      have := ha e (by simp)
      simp only [removeKey]
      rw [if_neg (by omega), ih (fun x hx => ha x (by simp [hx]))]
  induction l with
  | nil => cases m
  | cons e rest ih =>
    obtain ⟨ha, hr⟩ := (rising_cons _ _).1 h
    simp only [lookup] at m
    simp only [removeKey]
    split at m
    · rename_i hk
      subst hk
      rw [if_pos rfl, same rest ha, List.length_cons]
    · rename_i hk
      rw [if_neg hk, List.length_cons, List.length_cons, ih hr m]

/-- Writing over a record keeps every count of records whose condition it meets alike. -/
theorem length_filter_insertKey {α : Type} (p : α → Bool) (k : Nat) (v w : α) (l : List (Nat × α)) (h : rising l = true)
    (m : lookup k l = some w) (q : p v = p w) :
    ((insertKey k v l).filter (fun e => p e.2)).length = (l.filter (fun e => p e.2)).length := by
  induction l with
  | nil => cases m
  | cons e rest ih =>
    obtain ⟨ha, hr⟩ := (rising_cons _ _).1 h
    simp only [lookup] at m
    simp only [insertKey]
    split at m
    · rename_i hk
      cases m
      rw [if_neg (by omega), if_pos hk]
      simp only [List.filter_cons, q]
      split <;> rfl
    · rename_i hk
      have hm := ha _ (mem_of_lookup k w rest m)
      rw [if_neg (by simp at hm; omega), if_neg hk]
      simp only [List.filter_cons]
      split <;> simp [ih hr m]

/-- The kinds of the records left are no more than before. -/
theorem length_filter_removeKey {α : Type} (p : α → Bool) (k : Nat) (l : List (Nat × α)) :
    ((removeKey k l).filter (fun e => p e.2)).length ≤ (l.filter (fun e => p e.2)).length := by
  induction l with
  | nil => exact Nat.le_refl _
  | cons e rest ih =>
    simp only [removeKey]
    split
    · simp only [List.filter_cons]; split <;> (try simp only [List.length_cons]) <;> omega
    · simp only [List.filter_cons]; split <;> (try simp only [List.length_cons]) <;> omega

/-- The gap from `k` on lies at `k` or above, is not held, and stays below `n` while fewer than `n - k` records do. -/
theorem firstGap_spec {α : Type} (k : Nat) (l : List (Nat × α)) (h : rising l = true) (b : ∀ e ∈ l, k ≤ e.1) :
    k ≤ firstGap k l ∧ firstGap k l ≤ k + l.length ∧ lookup (firstGap k l) l = none := by
  induction l generalizing k with
  | nil => simp [firstGap, lookup]
  | cons e rest ih =>
    obtain ⟨ha, hr⟩ := (rising_cons _ _).1 h
    simp only [firstGap]
    split
    · rename_i hk
      obtain ⟨h1, h2, h3⟩ := ih (k + 1) hr (fun x hx => by have := ha x hx; omega)
      refine ⟨by omega, by simp; omega, ?_⟩
      simp only [lookup]
      rw [if_neg (by omega), h3]
    · rename_i hk
      have hb := b e (by simp)
      refine ⟨Nat.le_refl _, by omega, ?_⟩
      simp only [lookup]
      rw [if_neg hk]
      exact lookup_of_allAbove k rest (fun x hx => by have := ha x hx; omega)

/-- The lowest FREE record is FREE, and one of the 512 while any is (R5). -/
theorem State.lowestFree_spec (s : State) (h : s.tableLaw = true) (f : 0 < s.freeCount) :
    s.lowestFree < 512 ∧ s.job s.lowestFree = none := by
  obtain ⟨hr, -, hc, -⟩ := (State.tableLaw_iff s).1 h
  obtain ⟨-, h2, h3⟩ := firstGap_spec 0 s.jobs hr (fun _ _ => Nat.zero_le _)
  exact ⟨by unfold State.lowestFree; omega, h3⟩

/-- Writing over a record without changing its kind keeps the first law. -/
theorem State.tableLaw_setJob (s : State) (i : Nat) (j k : Job) (hj : s.job i = some j) (hk : k.kind = j.kind)
    (h : s.tableLaw = true) : (s.setJob i k).tableLaw = true := by
  obtain ⟨hr, hb, hc, hn⟩ := (State.tableLaw_iff s).1 h
  refine (State.tableLaw_iff _).2 ⟨rising_insertKey _ _ _ hr, ?_, ?_, ?_⟩
  · intro e he
    rcases mem_insertKey _ _ _ _ he with rfl | he
    · exact hb (i, j) (mem_of_lookup i j s.jobs hj)
    · exact hb e he
  · show s.freeCount + (insertKey i k s.jobs).length = 512
    rw [length_insertKey_old i k j s.jobs hr hj]; exact hc
  · show ((insertKey i k s.jobs).filter _).length ≤ 480
    rw [length_filter_insertKey (fun v => v.kind != .relocate) i k j s.jobs hr hj (by rw [hk])]; exact hn

theorem State.tableLaw_updateJob (s : State) (i : Nat) (f : Job → Job) (hf : ∀ j, (f j).kind = j.kind)
    (h : s.tableLaw = true) : (s.updateJob i f).tableLaw = true := by
  unfold State.updateJob
  split
  · exact h
  · rename_i j hj; exact State.tableLaw_setJob s i j _ hj (hf j) h

/-- Taking the lowest FREE record keeps the first law: for a relocation while any record is FREE, and for a STORE or a
RETRIEVE while more than 32 are (step 6 of R15). -/
theorem State.tableLaw_takeRecord (s : State) (j : Job) (hf : 0 < s.freeCount)
    (hk : j.kind = .relocate ∨ 32 < s.freeCount) (h : s.tableLaw = true) :
    (s.takeRecord s.lowestFree j).tableLaw = true := by
  obtain ⟨hl, hfree⟩ := State.lowestFree_spec s h hf
  obtain ⟨hr, hb, hc, hn⟩ := (State.tableLaw_iff s).1 h
  have hlen := length_insertKey_new s.lowestFree j s.jobs hfree
  refine (State.tableLaw_iff _).2 ⟨rising_insertKey _ _ _ hr, ?_, ?_, ?_⟩
  · intro e he
    rcases mem_insertKey _ _ _ _ he with rfl | he
    · exact hl
    · exact hb e he
  · show s.freeCount - 1 + (insertKey s.lowestFree j s.jobs).length = 512
    omega
  · show ((insertKey s.lowestFree j s.jobs).filter _).length ≤ 480
    rcases hk with hk | hk
    · have : ∀ l : List (Nat × Job), lookup s.lowestFree l = none →
          ((insertKey s.lowestFree j l).filter (fun e => e.2.kind != .relocate)).length =
            (l.filter (fun e => e.2.kind != .relocate)).length := by
        intro l
        induction l with
        | nil => intro; simp [insertKey, hk]
        | cons e rest ih =>
          intro hm
          simp only [lookup] at hm
          split at hm
          · cases hm
          · rename_i hne
            simp only [insertKey]
            split
            · simp [List.filter_cons, hk]
            · simp only [List.filter_cons]
              split <;> simp [ih hm]
      rw [this _ hfree]; exact hn
    · have := List.length_filter_le (fun e : Nat × Job => e.2.kind != .relocate) (insertKey s.lowestFree j s.jobs)
      omega

/-- Freeing a record that is not FREE keeps the first law (R11). -/
theorem State.tableLaw_freeRecord (s : State) (i : Nat) (j : Job) (hj : s.job i = some j) (h : s.tableLaw = true) :
    (s.freeRecord i).tableLaw = true := by
  obtain ⟨hr, hb, hc, hn⟩ := (State.tableLaw_iff s).1 h
  have hlen := length_removeKey i j s.jobs hr hj
  refine (State.tableLaw_iff _).2 ⟨rising_removeKey _ _ hr, fun e he => hb e (mem_removeKey _ _ _ he).1, ?_, ?_⟩
  · show s.freeCount + 1 + (removeKey i s.jobs).length = 512
    omega
  · exact Nat.le_trans (length_filter_removeKey (fun v : Job => v.kind != .relocate) i s.jobs) hn

/-! ## The sixth law (R10) and the legs (R153), part by part -/

theorem noRepeats_iff (l : List Nat) : noRepeats l = true ↔ l.Nodup := by
  induction l with
  | nil => simp [noRepeats]
  | cons x xs ih => simp [noRepeats, ih]

/-- A record is DONE. -/
theorem State.isDone_iff (s : State) (i : Nat) : s.isDone i = true ↔ ∃ j, s.job i = some j ∧ j.state = .done := by
  unfold State.isDone
  split
  · rename_i j hj; simp [hj]
  · rename_i hj; simp [hj]

/-- The sixth law, part by part. -/
theorem State.doneLaw_iff (s : State) : s.doneLaw = true ↔ s.done.Nodup ∧
    (∀ i ∈ s.done, ∃ j, s.job i = some j ∧ j.state = .done) ∧
    ∀ e ∈ s.jobs, e.2.state = .done → e.1 ∈ s.done := by
  simp only [State.doneLaw, Bool.and_eq_true, noRepeats_iff, List.all_eq_true, State.isDone_iff, Bool.or_eq_true,
    List.contains_iff_mem, bne_iff_ne, and_assoc]
  refine and_congr_right fun _ => and_congr_right fun _ => ?_
  constructor
  · exact fun h e he hd => (h e he).resolve_left (fun hn => hn hd)
  · intro h e he
    by_cases hd : e.2.state = .done
    · exact .inr (h e he hd)
    · exact .inl hd

/-- A record is the ORDERED or ACTIVE work of a leg. -/
theorem State.worksAs_iff (s : State) (i : Nat) (c : Fin 8) (n k : Nat) : s.worksAs i c n k = true ↔
    ∃ j, s.job i = some j ∧ (j.state = .ordered ∨ j.state = .active) ∧ j.assignment = some ⟨c, n, k⟩ := by
  unfold State.worksAs
  split
  · rename_i j hj; simp [hj]
  · rename_i hj; simp [hj]

/-- The law of the legs, part by part. -/
theorem State.legLaw_iff (s : State) : s.legLaw = true ↔ ∀ (c : Fin 8) (t : Trip), (s.line c).trip = some t →
    t.openJobs.Nodup ∧ ∀ g ∈ t.legs, g.finished = false → s.worksAs g.job c t.number g.index = true := by
  have hall : ∀ c : Fin 8, c ∈ allCranes := by decide
  simp only [State.legLaw, List.all_eq_true]
  constructor
  · intro h c t ht
    have := h c (hall c)
    simp only [ht, State.legsHold, Bool.and_eq_true, noRepeats_iff, List.all_eq_true, List.mem_filter,
      Bool.not_eq_true'] at this
    exact ⟨this.1, fun g hg hf => this.2 g ⟨hg, hf⟩⟩
  · intro h c _
    split
    · rename_i t ht
      obtain ⟨h1, h2⟩ := h c t ht
      simp only [State.legsHold, Bool.and_eq_true, noRepeats_iff, List.all_eq_true, List.mem_filter, Bool.not_eq_true']
      exact ⟨h1, fun g hg => h2 g hg.1 hg.2⟩
    · rfl

/-! ## The one form of the Slot Map -/

/-- The one form reads the slot records and the default classes alone. -/
theorem State.slotsCanonical_congr (s t : State) (h : t.slots = s.slots) (g : ∀ a, t.defaultClass a = s.defaultClass a) :
    t.slotsCanonical = s.slotsCanonical := by
  unfold State.slotsCanonical; simp only [h, g]

/-- A slot change with what it collects keeps the one form. -/
theorem State.slotsCanonical_changeSlot (s : State) (a : Fin 16) (p : SlotPos) (x : Bool) (r : Slot)
    (h : s.slotsCanonical = true) : (s.changeSlot a p x r).slotsCanonical = true := by
  have e : (s.changeSlot a p x r).slotsCanonical = (s.putSlot a p r).slotsCanonical := by
    unfold State.changeSlot
    dsimp only
    split <;> split <;> rfl
  rw [e]; exact State.slotsCanonical_putSlot s a p r h

theorem State.slotsCanonical_settleSlot (s : State) (a : Fin 16) (p : Option SlotPos) (i : Nat) (f : Slot → Slot)
    (h : s.slotsCanonical = true) : (s.settleSlot a p i f).slotsCanonical = true := by
  cases p with
  | none => exact h
  | some p => exact State.slotsCanonical_changeSlot s a p false _ h

/-- Making an aisle anew, with any record, keeps the one form: its own records leave the list with it. -/
theorem State.slotsCanonical_rebuild (s : State) (a : Fin 16) (r : Aisle) (h : s.slotsCanonical = true) :
    (({ s with slots := s.slotsBesides a } : State).setAisle a r).slotsCanonical = true := by
  simp only [State.slotsCanonical, Bool.and_eq_true, List.all_eq_true, decide_eq_true_eq] at h ⊢
  obtain ⟨hr, hd⟩ := h
  have hs : ∀ l : List (Nat × Slot), rising l = true → rising (l.filter (fun e => e.1 / 16384 != a.val)) = true := by
    intro l
    induction l with
    | nil => intro; rfl
    | cons e rest ih =>
      intro hl
      obtain ⟨ha, hl⟩ := (rising_cons _ _).1 hl
      simp only [List.filter_cons]
      split
      · exact (rising_cons _ _).2 ⟨fun x hx => ha x (List.mem_filter.1 hx).1, ih hl⟩
      · exact ih hl
  refine ⟨hs _ hr, fun e he => ?_⟩
  obtain ⟨hm, hne⟩ := List.mem_filter.1 he
  obtain ⟨hk, hv⟩ := hd e hm
  refine ⟨hk, ?_⟩
  have hb : (Fin.ofNat 16 (e.1 / 16384)) ≠ a := by
    intro hEq
    have : e.1 / 16384 % 16 = a.val := congrArg Fin.val hEq
    rw [Nat.mod_eq_of_lt (by omega)] at this
    simp [this] at hne
  have hc : (({ s with slots := s.slotsBesides a } : State).setAisle a r).defaultClass (Fin.ofNat 16 (e.1 / 16384)) =
      s.defaultClass (Fin.ofNat 16 (e.1 / 16384)) := by
    unfold State.defaultClass
    rw [State.aisle_setAisle_ne _ _ _ _ hb]
    rfl
  rw [hc]; exact hv

end Sys2Proof.Machine
end

