-- ==== Sys2Proof/Laws/DeviceLaws.lean ====
section
/-! SUPPORT. The fourth, seventh and eighth laws: what each of them reads, and what a release and a reconciliation do to the
aisle locks. -/

namespace Sys2Proof.Machine

/-- The seventh law reads the records and the groups alone. -/
theorem State.groupLaw_congr (s t : State) (h : t.jobs = s.jobs) (g : ∀ n, t.group n = s.group n) :
    t.groupLaw = s.groupLaw := by
  have hl : t.liveRanks = s.liveRanks := by funext n; unfold State.liveRanks; rw [h]
  have hr : t.releasedRanks = s.releasedRanks := by funext n; unfold State.releasedRanks; rw [h]
  have ho : t.openGroupHolds = s.openGroupHolds := by
    funext n o; unfold State.openGroupHolds; rw [hl, hr]
  have hg : t.group = s.group := funext g
  unfold State.groupLaw
  rw [hl, ho, hg, h]

/-- What is left of a trip reads the records and the crane's trip. -/
theorem State.tripLiesIn_congr (s t : State) (h : t.jobs = s.jobs) (c : Fin 8) (g : (t.line c).trip = (s.line c).trip)
    (n : Nat) (a : Fin 16) : t.tripLiesIn c n a = s.tripLiesIn c n a := by
  have hl : t.liesIn a = s.liesIn a := by funext i; simp only [State.liesIn, State.job, h]
  simp only [State.tripLiesIn, State.strandedTrip, State.jobsWhere, h, g, hl]

/-- The eighth law reads the records, the car queue, the current request, and of a line its trip, link and work state. -/
theorem State.carLaw_congr (s t : State) (h : t.jobs = s.jobs) (q : t.car.queue = s.car.queue)
    (r : t.car.current = s.car.current) (g : ∀ c, (t.line c).trip = (s.line c).trip)
    (l : ∀ c, (t.line c).link = (s.line c).link) (w : ∀ c, (t.line c).ctx.work = (s.line c).ctx.work) :
    t.carLaw = s.carLaw := by
  have hl : t.liesIn = s.liesIn := by funext a i; simp only [State.liesIn, State.job, h]
  have ht : t.tripLiesIn = s.tripLiesIn := by
    funext c n a; exact State.tripLiesIn_congr s t h c (g c) n a
  have he : t.entryHolds = s.entryHolds := by funext e; simp only [State.entryHolds, g]
  have hr : t.requestHolds = s.requestHolds := by
    funext e; simp only [State.requestHolds, Line.holdsTrip, q, ht, g]
  have hp : t.tripHolds = s.tripHolds := by funext c x; simp only [State.tripHolds, hl, ht, l, w]
  simp only [State.carLaw, h, q, r, g, he, hr, hp, ht]

/-- The fourth law reads the aisle locks alone. -/
theorem State.lockLaw_congr (s t : State) (h : ∀ a, (t.aisle a).lock = (s.aisle a).lock) : t.lockLaw = s.lockLaw := by
  have hk : t.holdsLock = s.holdsLock := by funext c a; simp only [State.holdsLock, h]
  unfold State.lockLaw State.locksOf
  rw [hk]

/-- A crane's locks are few when they are among few aisles. -/
theorem State.locksOf_sub (s t : State) (c : Fin 8) (h : ∀ a, t.holdsLock c a = true → s.holdsLock c a = true) :
    (t.locksOf c).length ≤ (s.locksOf c).length :=
  (List.monotone_filter_right allAisles h).length_le

/-- A release gives no crane a lock. -/
theorem State.lockLaw_releaseLock (s : State) (c : Fin 8) (a : Fin 16) (h : s.lockLaw = true) :
    (s.releaseLock c a).lockLaw = true := by
  simp only [State.lockLaw, List.all_eq_true, decide_eq_true_eq] at h ⊢
  intro d hd
  refine Nat.le_trans (State.locksOf_sub s _ d fun b hb => ?_) (h d hd)
  unfold State.releaseLock at hb
  split at hb
  · have hu : ((s.setLock a none).tellDispatcher).holdsLock d b = (s.setLock a none).holdsLock d b := rfl
    rw [hu] at hb
    by_cases e : b = a
    · subst e; simp [State.holdsLock, State.setLock] at hb
    · simpa [State.holdsLock, State.setLock, State.aisle_setAisle_ne _ _ _ _ e] using hb
  · exact hb
/-- What a release does to every lock. -/
theorem State.holdsLock_releaseLock (s : State) (c d : Fin 8) (a b : Fin 16) :
    (s.releaseLock c a).holdsLock d b = (s.holdsLock d b && !(d == c && b == a)) := by
  unfold State.releaseLock
  split
  · rename_i h
    have hu : ((s.setLock a none).tellDispatcher).holdsLock d b = (s.setLock a none).holdsLock d b := rfl
    rw [hu]
    by_cases e : b = a
    · subst e
      simp only [State.holdsLock, beq_iff_eq] at h
      by_cases k : d = c
      · simp [State.holdsLock, State.setLock, k]
      · have : ¬ c = d := fun x => k x.symm
        simp [State.holdsLock, State.setLock, h, this]
    · simp [State.holdsLock, State.setLock, State.aisle_setAisle_ne _ _ _ _ e, e]
  · rename_i h
    by_cases k : d = c ∧ b = a
    · obtain ⟨rfl, rfl⟩ := k; simp [Bool.not_eq_true _ ▸ h]
    · have : (d == c && b == a) = false := by simpa using k
      simp [this]

/-- Releasing a list of locks, but for some that are kept. -/
theorem State.holdsLock_releases (l : List (Fin 16)) (kept : Fin 16 → Prop) [DecidablePred kept] (s : State) (c d : Fin 8)
    (b : Fin 16) :
    (l.foldl (fun t a => if kept a then t else t.releaseLock c a) s).holdsLock d b =
      (s.holdsLock d b && !(d == c && l.contains b && !decide (kept b))) := by
  induction l generalizing s with
  | nil => simp
  | cons x xs ih =>
    rw [List.foldl_cons, ih]
    by_cases hk : kept x
    · by_cases e : b = x
      · subst e; simp [hk]
      · simp [hk, e]
    · rw [if_neg hk, State.holdsLock_releaseLock]
      by_cases e : b = x
      · subst e; cases hd : (d == c) <;> simp [hk]
      · have hx : (b == x) = false := by simpa using e
        simp [e, hx]

/-- What the reconciliation of crane `c` in aisle `z` leaves: when `c` gets the lock of `z`, it holds that and what it held
of the destinations that are kept, and no other crane holds `z`; otherwise no lock has changed (R100). -/
theorem State.holdsLock_settleLocks (s : State) (c d : Fin 8) (z b : Fin 16) (rebuilt : Option (Fin 16)) :
    (s.settleLocks c z rebuilt).holdsLock d b =
      if s.getsLock c z then
        if b = z then d == c else s.holdsLock d b && !(d == c && !(s.keptDestinations c rebuilt).contains b)
      else s.holdsLock d b := by
  unfold State.settleLocks
  split
  · dsimp only
    have hu : ∀ (t : State) (f : Context → Context), (t.updateCtx c f).holdsLock d b = t.holdsLock d b := fun _ _ => rfl
    rw [hu, State.holdsLock_releases]
    have hm : b ∈ allAisles := (by decide : ∀ x : Fin 16, x ∈ allAisles) b
    by_cases e : b = z
    · subst e
      simp only [State.holdsLock, State.setLock, State.aisle_setAisle]
      simp [Bool.beq_comm]
    · simp [State.holdsLock, State.setLock, State.aisle_setAisle_ne _ _ _ _ e, e, hm]
  · split
    · rfl
    · rfl

end Sys2Proof.Machine
end

