-- ==== Sys2Proof/Laws/Eligible.lean ====
section
/-! SUPPORT. What a crane's eligibility (R55) and the state inputs of its counters (R148) read, and how the end of an event
comes out when the event makes none of them hold. -/

namespace Sys2Proof.Machine

/-- A trip number that is found free stays found when fewer numbers are passed over (R73). -/
theorem State.freeNumberFrom_mono (u s : State) (c : Fin 8)
    (h : ∀ n, s.numberPassedOver c n = true → u.numberPassedOver c n = true) (fuel n : Nat) :
    (u.freeNumberFrom c fuel n).isSome = true → (s.freeNumberFrom c fuel n).isSome = true := by
  induction fuel generalizing n with
  | zero => exact id
  | succ fuel ih =>
    simp only [State.freeNumberFrom]
    generalize (if n = 0 ∨ 255 < n then 1 else n) = m
    cases hs : s.numberPassedOver c m with
    | false => simp
    | true => rw [h m hs]; simpa using ih (m + 1)

/-- Eligibility reads the crane's line, the car's current request, the aisles, the phase, the held flag and the crane's
STRANDED jobs: with the first four as they stand it cannot come about by setting the flag or stranding jobs (R55, R73). -/
theorem State.eligible_mono (u s : State) (c : Fin 8) (hl : u.line c = s.line c) (hc : u.car.current = s.car.current)
    (ha : u.aisles = s.aisles) (hp : u.phase = s.phase) (hd : s.disp.held = true → u.disp.held = true)
    (hj : ∀ n, u.strandedTrip c n = [] → s.strandedTrip c n = []) :
    u.eligible c = true → s.eligible c = true := by
  have hi : u.inConfiguredAisle c = s.inConfiguredAisle c := by
    unfold State.inConfiguredAisle State.aisle; rw [hl, ha]
  have hb : u.beingCarried c = s.beingCarried c := by unfold State.beingCarried; rw [hc]
  have hk : u.handAllows c = true → s.handAllows c = true := by
    unfold State.handAllows
    rw [hl]
    generalize (s.line c).ctx.tripInHand = n
    have := hj n
    cases hs : s.strandedTrip c n <;> cases hu : u.strandedTrip c n <;> simp_all
  have hn : (u.nextTripNumber c).isSome = true → (s.nextTripNumber c).isSome = true := by
    unfold State.nextTripNumber
    rw [hl]
    refine State.freeNumberFrom_mono u s c (fun n => ?_) _ _
    unfold State.numberPassedOver
    rw [hl]
    have := hj n
    cases hs : s.strandedTrip c n <;> cases hu : u.strandedTrip c n <;> simp_all
  have hf : u.disp.held = false → s.disp.held = false := by
    cases hs : s.disp.held <;> simp_all
  unfold State.eligible
  rw [hl, hb, hi, hp]
  simp only [Bool.and_eq_true, Bool.not_eq_true']
  rintro ⟨⟨⟨⟨⟨⟨⟨⟨⟨⟨⟨⟨h1, h2⟩, h3⟩, h4⟩, h5⟩, h6⟩, h7⟩, h8⟩, h9⟩, h10⟩, h11⟩, h12⟩, h13⟩
  exact ⟨⟨⟨⟨⟨⟨⟨⟨⟨⟨⟨⟨h1, h2⟩, h3⟩, h4⟩, hk h5⟩, hn h6⟩, h7⟩, h8⟩, h9⟩, h10⟩, h11⟩, h12⟩, hf h13⟩

/-- The state inputs other than IDLE-eligible read the crane's line alone. -/
theorem State.inputHolds_mono (u s : State) (c : Fin 8) (n : Nat) (hw : (u.line c).ctx.work = .busy → (s.line c).ctx.work = .busy)
    (he : u.eligible c = true → s.eligible c = true)
    (hf : (u.line c).ctx.faulted = true → (s.line c).ctx.faulted = true)
    (ho : (u.line c).ctx.aisle = .onCar → (s.line c).ctx.aisle = .onCar) :
    u.inputHolds c n = true → s.inputHolds c n = true := by
  unfold State.inputHolds
  split
  · simpa using hw
  · split
    · exact he
    · split
      · exact hf
      · split
        · simpa using ho
        · exact id

/-- An event that takes one crane's link away from UP, leaves the other lines as they stand and may strand jobs makes no
state input hold that did not, when it brings that crane neither trip nor fault nor the car. -/
theorem State.inputHolds_offline (u s : State) (c : Fin 8) (hn : ∀ d, d ≠ c → u.line d = s.line d)
    (hk : (u.line c).link ≠ .up) (hw : (u.line c).ctx.work = .busy → (s.line c).ctx.work = .busy)
    (hf : (u.line c).ctx.faulted = true → (s.line c).ctx.faulted = true)
    (ho : (u.line c).ctx.aisle = .onCar → (s.line c).ctx.aisle = .onCar) (hc : u.car.current = s.car.current)
    (ha : u.aisles = s.aisles) (hp : u.phase = s.phase) (hd : s.disp.held = true → u.disp.held = true)
    (hj : ∀ d n, u.strandedTrip d n = [] → s.strandedTrip d n = []) (d : Fin 8) (n : Nat) :
    u.inputHolds d n = true → s.inputHolds d n = true := by
  by_cases h : d = c
  · subst h
    have hl : ((u.line d).link == LinkState.up) = false := by simpa using hk
    refine State.inputHolds_mono u s d n hw ?_ hf ho
    unfold State.eligible
    simp only [hl, Bool.false_and, Bool.false_eq_true, false_implies]
  · have e := hn d h
    exact State.inputHolds_mono u s d n (by rw [e]; exact id) (State.eligible_mono u s d e hc ha hp hd (hj d))
      (by rw [e]; exact id) (by rw [e]; exact id)

/-- What an event has noted changes no state input. -/
theorem State.inputHolds_scratch (s : State) (x : Scratch) (c : Fin 8) (n : Nat) :
    s.inputHolds c n = true → ({ s with scratch := x } : State).inputHolds c n = true :=
  State.inputHolds_mono s ({ s with scratch := x }) c n id
    (State.eligible_mono s ({ s with scratch := x }) c rfl rfl rfl rfl id (fun _ => id)) id id

/-- An event that has no event input, notes and collects no job, and makes no state input hold that did not, ends with the
conditions taken afresh: no counter counts, no drained mark changes and no pass is told. -/
theorem State.event_plain (s u : State) (f : State → State) (hq : (f s).Quiet) (hi : (f s).scratch.inputs = [])
    (hu : ({ f s with scratch := .empty } : State) = u)
    (hh : ∀ c n, u.inputHolds c n = true → s.inputHolds c n = true) : s.event f = u.takeConditions := by
  have h : ∀ c n, (f s).inputHolds c n = true → s.inputHolds c n = true :=
    fun c n k => hh c n (hu ▸ State.inputHolds_scratch (f s) .empty c n k)
  unfold State.event
  rw [State.finish_plain (f s) s hq hi h, hu]

end Sys2Proof.Machine
end

