-- ==== Sys2Proof/Laws/Kept.lean ====
section
/-! SUPPORT. What the moves of the Job Table and the Slot Map can do to the records: a property that the five record moves
keep is kept by each of them, by every evaluation, and by the end of an event. The first law and the one form of the Slot
Map are such properties. -/

namespace Sys2Proof.Machine

/-- A property of the records that the five record moves keep: it reads the records, the FREE count and the slots with
their default classes alone, and it stands under writing a slot, writing over a record without changing its kind, taking
the lowest FREE record, and freeing a record. -/
structure Kept (P : State → Prop) : Prop where
  aside : ∀ s t : State, t.jobs = s.jobs → t.freeCount = s.freeCount → t.slots = s.slots →
    (∀ a, t.defaultClass a = s.defaultClass a) → P s → P t
  putSlot : ∀ (s : State) (a : Fin 16) (p : SlotPos) (r : Slot), P s → P (s.putSlot a p r)
  write : ∀ (s : State) (i : Nat) (j k : Job), s.job i = some j → k.kind = j.kind → P s → P (s.setJob i k)
  take : ∀ (s : State) (j : Job), 0 < s.freeCount → (j.kind = .relocate ∨ 32 < s.freeCount) → P s →
    P (s.takeRecord s.lowestFree j)
  free : ∀ (s : State) (i : Nat) (j : Job), s.job i = some j → P s → P (s.freeRecord i)

/-- The first law is kept (R5). -/
theorem kept_tableLaw : Kept (fun s => s.tableLaw = true) where
  aside := fun s t h g _ _ hs => (State.tableLaw_congr s t h g).trans hs
  putSlot := fun s a p r h => (State.tableLaw_congr s (s.putSlot a p r) rfl rfl).trans h
  write := fun s i j k hj hk h => State.tableLaw_setJob s i j k hj hk h
  take := fun s j hf hk h => State.tableLaw_takeRecord s j hf hk h
  free := fun s i j hj h => State.tableLaw_freeRecord s i j hj h

/-- The one form of the Slot Map is kept. -/
theorem kept_slotsCanonical : Kept (fun s => s.slotsCanonical = true) where
  aside := fun s t _ _ h g hs => (State.slotsCanonical_congr s t h g).trans hs
  putSlot := fun s a p r h => State.slotsCanonical_putSlot s a p r h
  write := fun s i _ k _ _ h => (State.slotsCanonical_congr s (s.setJob i k) rfl (fun _ => rfl)).trans h
  take := fun s j _ _ h => (State.slotsCanonical_congr s (s.takeRecord s.lowestFree j) rfl (fun _ => rfl)).trans h
  free := fun s i _ _ h => (State.slotsCanonical_congr s (s.freeRecord i) rfl (fun _ => rfl)).trans h

namespace Kept

variable {P : State → Prop} (K : Kept P)
include K

theorem raise (s : State) (x : Alert) (h : P s) : P (s.raise x) := K.aside s _ rfl rfl rfl (fun _ => rfl) h

theorem tellDispatcher (s : State) (h : P s) : P s.tellDispatcher := K.aside s _ rfl rfl rfl (fun _ => rfl) h

theorem collect (s : State) (js : List Nat) (h : P s) : P (s.collect js) := K.aside s _ rfl rfl rfl (fun _ => rfl) h

theorem noteOwn (s : State) (i : Nat) (h : P s) : P (s.noteOwn i) := K.aside s _ rfl rfl rfl (fun _ => rfl) h

theorem setGroup (s : State) (g : Fin 16) (r : Group) (h : P s) : P (s.setGroup g r) :=
  K.aside s _ rfl rfl rfl (fun _ => rfl) h

theorem updateLine (s : State) (c : Fin 8) (f : Line → Line) (h : P s) : P (s.updateLine c f) :=
  K.aside s _ rfl rfl rfl (fun _ => rfl) h

theorem updateCtx (s : State) (c : Fin 8) (f : Context → Context) (h : P s) : P (s.updateCtx c f) :=
  K.aside s _ rfl rfl rfl (fun _ => rfl) h

theorem setDone (s : State) (l : List Nat) (h : P s) : P { s with done := l } :=
  K.aside s _ rfl rfl rfl (fun _ => rfl) h

theorem setScratch (s : State) (x : Scratch) (h : P s) : P { s with scratch := x } :=
  K.aside s _ rfl rfl rfl (fun _ => rfl) h

omit K in
/-- A list of moves, each of which keeps the property. -/
theorem foldl {β : Type} (f : State → β → State) (hf : ∀ s x, P s → P (f s x)) (l : List β) (s : State) (h : P s) :
    P (l.foldl f s) := by
  induction l generalizing s with
  | nil => exact h
  | cons x xs ih => exact ih _ (hf s x h)

theorem updateJob (s : State) (i : Nat) (f : Job → Job) (hf : ∀ j, (f j).kind = j.kind) (h : P s) :
    P (s.updateJob i f) := by
  unfold State.updateJob
  split
  · exact h
  · rename_i j hj; exact K.write s i j _ hj (hf j) h

theorem changeSlot (s : State) (a : Fin 16) (p : SlotPos) (x : Bool) (r : Slot) (h : P s) : P (s.changeSlot a p x r) := by
  have h1 := K.putSlot s a p r h
  unfold State.changeSlot
  dsimp only
  split <;> split
  · exact K.collect _ _ (K.collect _ _ h1)
  · exact K.collect _ _ h1
  · exact K.collect _ _ h1
  · exact h1

theorem reserve (s : State) (a : Fin 16) (p : SlotPos) (k : ResKind) (i : Nat) (h : P s) : P (s.reserve a p k i) :=
  K.changeSlot s a p false _ h

theorem settleSlot (s : State) (a : Fin 16) (p : Option SlotPos) (i : Nat) (f : Slot → Slot) (h : P s) :
    P (s.settleSlot a p i f) := by
  cases p with
  | none => exact h
  | some p => exact K.changeSlot s a p false _ h

theorem releaseReservations (s : State) (i : Nat) (h : P s) : P (s.releaseReservations i) := by
  unfold State.releaseReservations
  split
  · exact h
  · rename_i j _
    have h1 := K.settleSlot _ j.aisle j.target i id (K.settleSlot s j.aisle j.slot i id h)
    dsimp only
    split
    · exact K.updateJob _ _ _ (fun _ => rfl) h1
    · exact h1

theorem advanceGroup (s : State) (g : Fin 16) (o : OpenGroup) (h : P s) : P (s.advanceGroup g o) := by
  unfold State.advanceGroup
  dsimp only
  split
  · exact K.tellDispatcher _ (K.setGroup _ _ _ h)
  · exact K.setGroup _ _ _ h

theorem finishRank (s : State) (g : Fin 16) (r : Nat) (h : P s) : P (s.finishRank g r) := by
  unfold State.finishRank
  split
  · exact h
  · split
    · exact K.advanceGroup _ _ _ h
    · split
      · exact K.setGroup _ _ _ h
      · exact h

theorem endMembership (s : State) (m : GroupRank) (o : JobOutcome) (h : P s) : P (s.endMembership m o) := by
  unfold State.endMembership
  dsimp only
  split
  · exact K.finishRank _ _ _ (K.setGroup _ _ _ h)
  · exact K.setGroup _ _ _ h

/-- Entry into DONE (R9). -/
theorem enterDone (s : State) (i : Nat) (o : JobOutcome) (h : P s) : P (s.enterDone i o) := by
  unfold State.enterDone
  split
  · exact h
  · rename_i j hj
    have h1 := K.write s i j { j with
      state := .done, reason := none, assignment := none, link := none, outcome := some o } hj rfl h
    have h2 := K.raise _ .jobDone (K.setDone _ (s.done ++ [i]) h1)
    have h3 : ∀ t, P t → P (match j.group with | some m => t.endMembership m o | none => t) := by
      intro t ht; split
      · exact K.endMembership _ _ _ ht
      · exact ht
    have h4 : ∀ t, P t → P (match j.link with
        | none => t
        | some l =>
          let t := t.updateJob l (fun k => { k with link := none })
          if j.kind = .relocate then t.noteOwn l else t) := by
      intro t ht; split
      · exact ht
      · rename_i l _
        have := K.updateJob t l (fun k => { k with link := none }) (fun _ => rfl) ht
        dsimp only
        split
        · exact K.noteOwn _ _ this
        · exact this
    exact h4 _ (h3 _ h2)

theorem withdrawNow (s : State) (i : Nat) (h : P s) : P (s.withdrawNow i) :=
  K.enterDone _ _ _ (K.releaseReservations s i h)

theorem freeRecord (s : State) (i : Nat) (h : P s) (g : (s.job i).isSome = true) : P (s.freeRecord i) := by
  obtain ⟨j, hj⟩ := Option.isSome_iff_exists.1 g
  exact K.free s i j hj h

end Kept

@[simp] theorem State.jobs_settleSlot (s : State) (a : Fin 16) (p : Option SlotPos) (i : Nat) (f : Slot → Slot) :
    (s.settleSlot a p i f).jobs = s.jobs := by
  cases p with
  | none => rfl
  | some p =>
    simp only [State.settleSlot, State.changeSlot]
    split <;> split <;> rfl

theorem State.isSome_updateJob (s : State) (i k : Nat) (f : Job → Job) :
    ((s.updateJob i f).job k).isSome = (s.job k).isSome := by
  unfold State.updateJob
  split
  · rfl
  · rename_i j hj
    by_cases h : k = i
    · subst h; rw [State.job_setJob_self, hj]; rfl
    · rw [State.job_setJob_ne _ _ _ _ h]

/-- Releasing reservations frees no record and fills none. -/
theorem State.isSome_releaseReservations (s : State) (i k : Nat) :
    ((s.releaseReservations i).job k).isSome = (s.job k).isSome := by
  have hs : ∀ (t u : State), t.jobs = u.jobs → (t.job k).isSome = (u.job k).isSome := by
    intro t u h; unfold State.job; rw [h]
  unfold State.releaseReservations
  split
  · rfl
  · dsimp only
    split
    · rw [State.isSome_updateJob]; exact hs _ _ (by simp)
    · exact hs _ _ (by simp)

namespace Kept

variable {P : State → Prop} (K : Kept P)
include K

/-- A record that is not FREE becomes FREE directly (R12). -/
theorem freeDirectly (s : State) (i : Nat) (g : (s.job i).isSome = true) (h : P s) : P (s.freeDirectly i) :=
  K.freeRecord _ _ (K.releaseReservations s i h) (by rw [State.isSome_releaseReservations]; exact g)

theorem returnJob (s : State) (i : Nat) (move : Job → State) (hm : ∀ j, s.job i = some j → P (move j)) (h : P s) :
    P (s.returnJob i move) := by
  unfold State.returnJob
  split
  · exact h
  · rename_i j hj
    split
    · exact K.withdrawNow s i h
    · split
      · exact K.freeDirectly s i (by rw [hj]; rfl) h
      · exact hm j hj

theorem enterReady (s : State) (i : Nat) (h : P s) : P (s.enterReady i) :=
  K.returnJob s i _ (fun j hj => K.tellDispatcher _ (K.write s i j _ hj rfl h)) h

theorem enterPending (s : State) (i : Nat) (r : PendingReason) (h : P s) : P (s.enterPending i r) := by
  refine K.returnJob s i _ (fun j hj => ?_) h
  have := K.write s i j { j with state := .pending, reason := some r, assignment := none } hj rfl h
  dsimp only
  split
  · exact K.raise _ _ this
  · exact this

theorem enterStranded (s : State) (i : Nat) (h : P s) : P (s.enterStranded i) :=
  K.raise _ _ (K.updateJob s i _ (fun _ => rfl) h)

/-- The making of a relocation, or the wait for one (R42). -/
theorem synthesise (s : State) (i : Nat) (d : Job) (p : SlotPos) (h : P s) : P (s.synthesise i d p) := by
  unfold State.synthesise
  dsimp only
  split
  · exact K.enterPending _ _ _ h
  · rename_i hf
    split
    · exact K.enterPending _ _ _ h
    · exact K.enterPending _ _ _ (K.updateJob _ _ _ (fun _ => rfl) (K.tellDispatcher _ (K.reserve _ _ _ _ _
        (K.reserve _ _ _ _ _ (K.take s _ (Nat.pos_of_ne_zero hf) (.inl rfl) h)))))

/-- An evaluation (R37 to R42). -/
theorem evaluate (s : State) (i : Nat) (h : P s) : P (s.evaluate i) := by
  unfold State.evaluate
  split
  · exact h
  · split
    · unfold State.evaluateChosen
      split
      · exact K.enterPending _ _ _ h
      · split
        · exact K.enterPending _ _ _ h
        · exact K.enterReady _ _ (K.updateJob _ _ _ (fun _ => rfl) (K.reserve _ _ _ _ _ h))
    · unfold State.evaluateExplicit
      split
      · exact K.enterPending _ _ _ h
      · split
        · exact K.enterPending _ _ _ h
        · split
          · exact K.enterPending _ _ _ h
          · split
            · exact K.enterPending _ _ _ h
            · exact K.enterReady _ _ h
    · unfold State.evaluateRetrieve
      dsimp only
      split
      · exact K.enterPending _ _ _ h
      · split
        · exact K.enterReady _ _ h
        · split
          · exact K.enterReady _ _ h
          · split
            · exact K.synthesise _ _ _ _ h
            · exact K.enterPending _ _ _ h
    · exact h

theorem evaluatePending (s : State) (i : Nat) (h : P s) : P (s.evaluatePending i) := by
  unfold State.evaluatePending
  split
  · exact h
  · split
    · exact K.evaluate s i h
    · exact h

/-- The evaluations that an event brings about (R44). -/
theorem settleEvaluations (s : State) (h : P s) : P s.settleEvaluations := by
  unfold State.settleEvaluations
  dsimp only
  have h0 := Kept.foldl State.evaluatePending K.evaluatePending s.scratch.own _
    (K.setScratch s { s.scratch with own := [] } h)
  exact K.setScratch _ _ (Kept.foldl State.evaluatePending K.evaluatePending _ _ h0)

theorem bumpTimes (s : State) (c : Fin 8) (id : CounterId) (n : Nat) (h : P s) : P (s.bumpTimes c id n) := by
  induction n generalizing s with
  | zero => exact h
  | succ n ih =>
    refine ih _ ?_
    rcases State.bump_cases s c id with ⟨-, e⟩ | ⟨-, e⟩
    · rw [e]; exact K.raise _ _ (K.updateCtx _ _ _ (K.updateLine _ _ _ h))
    · rw [e]; exact K.updateLine _ _ _ h

/-- The end of an event: evaluations, counters, what the lines tell, and the alerts. -/
theorem finish (s b : State) (h : P s) : P (s.finish b) := by
  have h1 : P (s.settleEvaluations.countInputs b) :=
    Kept.foldl _ (fun t c ht => Kept.foldl _ (fun u id hu => K.bumpTimes u c id _ hu) _ t ht) _ _ (K.settleEvaluations s h)
  have h2 := Kept.foldl b.tellLine (fun t c ht => by
    unfold State.tellLine
    split
    · exact K.tellDispatcher t ht
    · exact ht) allCranes _ h1
  rw [State.finish_eq]
  generalize allCranes.foldl b.tellLine (s.settleEvaluations.countInputs b) = u at h2 ⊢
  exact K.aside u _ rfl rfl rfl (fun _ => rfl) h2

/-- An event keeps the property when what it does keeps it. -/
theorem event (s : State) (f : State → State) (h : P (f s)) : P (s.event f) := K.finish _ _ h

/-- A COMPLETED leg (R46, R47, R48). -/
theorem completeJob (s : State) (i : Nat) (j : Job) (h : P s) : P (s.completeJob i j) := by
  unfold State.completeJob
  dsimp only
  refine K.enterDone _ _ _ ?_
  split
  · exact K.settleSlot _ _ _ _ _ h
  · exact K.settleSlot _ _ _ _ _ h
  · exact K.settleSlot _ _ _ _ _ (K.settleSlot _ _ _ _ _ h)

/-- Every outcome of a leg (R46, R47, R48). -/
theorem applyOutcome (s : State) (i : Nat) (j : Job) (o : JobOutcome) (h : P s) : P (s.applyOutcome i j o) := by
  unfold State.applyOutcome
  split
  · exact K.completeJob s i j h
  · exact K.withdrawNow s i h
  · have h1 := K.settleSlot s j.aisle j.slot i (fun r => (r.filled 15).doubted) h
    dsimp only
    split
    · have h2 := K.updateJob _ i (fun k => { k with slot := none }) (fun _ => rfl) h1
      split
      · exact K.withdrawNow _ i h2
      · exact K.evaluate _ i h2
    · exact K.enterDone _ _ _ h1
  · exact K.enterDone _ _ _ (K.settleSlot _ _ _ _ _ (K.settleSlot _ _ _ _ _ h))
  · exact K.settleSlot _ _ _ _ _ (K.enterDone _ _ _ (K.settleSlot _ _ _ _ _ h))
  · have h1 := K.settleSlot s j.aisle j.slot i id h
    dsimp only
    split
    · exact K.enterDone _ _ _ (K.updateJob _ _ _ (fun _ => rfl) h1)
    · exact K.enterDone _ _ _ h1

/-- Every report of a leg (R157). -/
theorem applyReport (s : State) (i : Nat) (r : LegReport) (h : P s) : P (s.applyReport i r) := by
  unfold State.applyReport
  split
  · exact h
  · split
    · exact K.applyOutcome _ _ _ _ h
    · exact K.enterReady _ _ h
    · exact K.enterReady _ _ h
    · exact K.enterStranded _ _ h
    · exact K.enterStranded _ _ h

end Kept

end Sys2Proof.Machine
end

