-- ==== Sys2Proof/Tests/Slice0.lean ====
section
/-! SUPPORT. Tests: each check of WellFormed refuses an ill-formed command; the framing of R186 on the manual's own
vector; single steps against the manual's words; and, for each statement with hypotheses, a concrete state and operands
that meet them. Expected values come from the manual's text, not from the model. -/

namespace Sys2Proof.Tests

open Sys2Proof Sys2Proof.Machine

-- Asynchronous elaboration would hold one thread, and its memory, for each theorem below.
set_option Elab.async false

/-! ## WellFormed: an ill-formed term for each check, which the check refuses -/

theorem test_page_dual_code_refused : (Instr.basePage 0 true 0x0100070201000000).wellFormed = false := by decide

theorem test_page_dual_code_taken : (Instr.basePage 0 true 0x0100070101000000).wellFormed = true := by decide

theorem test_nak_reason_refused : (Instr.orderNak 0 1 5).wellFormed = false := by decide

theorem test_status_level_refused : (Instr.status 0 0 0 0 32 0 0 0 0).wellFormed = false := by decide

theorem test_status_mode_refused : (Instr.status 0 3 0 0 0 0 0 0 0).wellFormed = false := by decide

theorem test_cancel_verdict_refused : (Instr.cancelAnswer 0 1 1 0).wellFormed = false := by decide

theorem test_car_reason_refused : (Instr.carNak 1 4).wellFormed = false := by decide

theorem test_phase_refused : (Instr.phase 1 5).wellFormed = false := by decide

theorem test_car_status_position_refused : (Instr.carStatus 0 16 0 0 0).wellFormed = false := by decide

theorem test_known_code_is_not_unknown : (Instr.unknownRequestCode 0x10 0 []).wellFormed = false := by decide

theorem test_body_length_refused : (Instr.stage 0 [1, 2, 3]).wellFormed = false := by decide

theorem test_body_length_taken : (Instr.stage 0 [0, 0, 0, 1]).wellFormed = true := by decide

/-- The table gives no row any bits, so no word spells a command. -/
theorem test_no_word_spells_a_command : decodeTableWord 8 0x10 = none := by decide

/-! ## The check value (R186: the nine characters 1 to 9 give 29B1h) -/

theorem test_check_value : crc16 [0x31, 0x32, 0x33, 0x34, 0x35, 0x36, 0x37, 0x38, 0x39] = 0x29B1 := by
  decide +kernel

/-! ## States for the steps below -/

/-- What a command leaves meets a condition. -/
def leaves (o : Host.Outcome State Fault Refusal) (p : State → Bool) : Bool :=
  match o with
  | .next s => p s
  | .fault _ => false
  | .refused _ => false

/-- Settled, checked by its three parts. -/
theorem settled (s : State)
    (h : s.scratch = .empty ∧ s.host.conditions = s.heldConditions ∧ s.host.attention = s.host.wantsAttention) :
    s.Settled := ⟨h.1, h.2.1, h.2.2⟩

/-- A crane that is UP in aisle 0 with no trip, standing at bay 0, level 0. -/
def craneUp : Line :=
  { Line.powerOn with
    link := .up
    ctx := { Context.powerOn with
      h := some 400, v := some 900, a := some 1500, fF := some 3000, fR := some 4000, forkDepth := some 1,
      dualCapable := some false, classes := some 0xFFFF, mode := .auto, aisle := .inAisle 0, position := some (0, 0),
      referenced := true } }

/-- RUNNING, with aisle 0 of 2 levels and 4 bays, single-deep, its lock held by crane 0, which is UP in it. -/
def site : State :=
  (({ State.reset with phase := .running }).setAisle 0 ⟨some ⟨2, 4, 1, 3⟩, some true, some 0, 0, 16⟩).setLine 0 craneUp

/-- The slot LEFT, level 1, bay 2, FRONT: with aisle 0 its packed address is 002080h (R187). -/
def place : SlotPos := ⟨.left, 1, 2, .front⟩

/-- A RETRIEVE of tag 7 on `place`. -/
def retrieve (state : JobState) : Job :=
  { tag := 7, kind := .retrieve, state := state, reason := none, aisle := 0, slot := some place, target := none,
    choice := none, loadClass := 3, attr := 0, priority := 0, age := 0, staged := none, group := none, link := none,
    assignment := none, withdrawRequested := false, excluded := 0, refusals := 0, lastScore := none, outcome := none }

/-- An EXPLICIT STORE of tag 7 to `place`. -/
def store (state : JobState) : Job :=
  { retrieve state with kind := .store, choice := some .explicit, staged := some true }

/-- A state with one record, and a slot record at `place`, its conditions taken. -/
def withJob (s : State) (j : Job) (r : Slot) : State :=
  ({ (s.putSlot 0 place r) with
    jobs := [(0, j)], freeCount := 511, done := if j.state = .done then [0] else [] } : State).takeConditions

/-- `place` holding a pallet that record 0 is to take out. -/
def full : Slot := ⟨.occupied, 3, some 3, some ⟨.outOf, 0⟩, false⟩

/-- `place` empty, kept for the pallet of record 0. -/
def kept : Slot := ⟨.empty, 3, none, some ⟨.into, 0⟩, false⟩

/-! ## Single steps -/

/-- R1, R16, R190: the descriptor of a RETRIEVE of tag 7, class 3, on `place`. -/
def retrieveBody : List Byte := [0, 0, 0, 7, 2, 0x00, 0x20, 0x80, 0x30, 0, 0, 0, 0, 0]

/-- `place` holding a pallet of class 3. -/
def stocked : State := (site.putSlot 0 place ⟨.occupied, 3, some 3, none, false⟩).takeConditions

/-- R16: a posted RETRIEVE of an OCCUPIED FRONT slot is READY in the lowest FREE record, index 0. -/
theorem test_post_job_reply : leaves (exec (.postJob 9 retrieveBody) stocked) (fun t =>
    t.host.replies == [⟨0x10, 9, .ok, [0, 0, 2, 0, 0, 0, 0, 0, 0, 0]⟩]) = true := by decide +kernel

/-- R7, R70: its entry into READY is a trigger of a pass. -/
theorem test_post_job_tells : leaves (exec (.postJob 9 retrieveBody) stocked) (fun t =>
    t.disp.passesDue == 1 && t.freeCount == 511) = true := by decide +kernel

/-- Section 3.4: from (0, 0), M(P, p) = 1500 + max(2 x 400, 1 x 900) = 2400, so T = 2400 + 3000 + 2400 + 3000 = 10800. -/
theorem test_retrieve_is_priced : (withJob site (retrieve .ready) full).candidates.map Candidate.score = [10800] := by
  decide +kernel

/-- R73, R125: the pass orders it as trip 1. -/
theorem test_pass_orders : leaves
    (exec .dispatchPass { withJob site (retrieve .ready) full with disp := { site.disp with passesDue := 1 } }) (fun t =>
    (t.line 0).sent == [.order 1 none [⟨1, .retrieve, 0, some place, none⟩]] && t.disp.passesDue == 0) = true := by
  decide +kernel

/-- Section 3.8: cranes 2 and 5, and the jobs J1 (record 20, head of its group), J2 (21) and J3 (22). -/
def twoCranes : State :=
  let wide : Aisle := ⟨some ⟨12, 60, 2, 3⟩, some true, none, 0, 2880⟩
  let s : State := { State.reset with
    phase := .running
    jobs := [(20, { retrieve .ready with
        aisle := 3, slot := some ⟨.left, 10, 52, .rear⟩, priority := 2, age := 300, group := some ⟨0, 5⟩ }),
      (21, { store .ready with aisle := 3, slot := some ⟨.left, 2, 20, .front⟩, age := 45 }),
      (22, { retrieve .ready with aisle := 9, slot := some ⟨.left, 2, 5, .front⟩, priority := 4, age := 120 })]
    disp := { State.reset.disp with weights := ⟨20, 3000, 10000, 30000, true⟩ }
    car := { Car.powerOn with
      configured := true, c0 := 20000, c1 := 4000, work := .carrying, current := some ⟨41, 6, 1, 2, 3⟩,
      queue := [⟨4, 0, 11⟩] } }
  let s := ((s.setAisle 3 { wide with lock := some 2 }).setAisle 7 { wide with lock := some 5 }).setAisle 9 wide
  let s := s.setGroup 0 ⟨1, some ⟨5, 3, [], 0, 0, false⟩⟩
  let s := s.setLine 2 { craneUp with ctx := { craneUp.ctx with
    fF := some 6000, fR := some 9000, forkDepth := some 2, dualCapable := some true, aisle := .inAisle 3,
    position := some (40, 6) } }
  s.setLine 5 { craneUp with ctx := { craneUp.ctx with
    h := some 500, v := some 1000, a := some 1200, fF := some 7000, fR := some 10000, aisle := .inAisle 7,
    position := some (12, 3) } }

/-- The scores of section 3.8.1: J1 21,600, J2 38,100, J3 126,100 and the pair 23,300 for crane 2; J3 102,200 for crane 5. -/
theorem test_pricing_two_cranes : twoCranes.candidates.map (fun x => (x.crane, x.legs, x.score)) =
    [(2, [20], 21600), (2, [21], 38100), (2, [22], 126100), (2, [21, 20], 23300), (5, [22], 102200)] := by
  decide +kernel

/-- R116: a telegram other than PAGE from an ABSENT crane is answered with RESTART. -/
theorem test_absent_crane_is_restarted : leaves (exec (.orderAck 3 1) State.reset) (fun t =>
    (t.line 3).sent == [.restart]) = true := by decide +kernel

/-- R178: HOLD, raised and not masked, asserts ATTENTION in the same event. -/
theorem test_hold_asserts_attention : leaves (exec (.holdInputChange .asserted) State.reset) (fun t =>
    t.host.attention && t.disp.held) = true := by decide +kernel

/-- R186, R187: POLL to a crane has the content 23h alone. -/
theorem test_poll_content : telegramContent .poll = [0x23] := by decide

/-! ## Witnesses: the hypotheses of each statement, met together -/

theorem witness_StepRunsTheFrontCommand :
    ({ site with pending := [.dispatchPass, .powerOn .asserted] } : State).pending =
      .dispatchPass :: [.powerOn .asserted] := rfl

theorem witness_EveryStepKeepsSettled : site.Settled ∧ ({ site with pending := [.hostFrameGapTimeout] } : State).Settled ∧
    step { site with pending := [.hostFrameGapTimeout] } = .next site :=
  ⟨settled _ (by decide +kernel), settled _ (by decide +kernel), rfl⟩

theorem witness_ResetIsAnsweredThenTakesEffect : site.hasTurn ⟨0x93, 1, []⟩ ∧
    ({ site with resetDue := true } : State).resetDue = true ∧ site.resetDue = false := ⟨.inl rfl, rfl, rfl⟩

/-- A longest body with a full list and with the last room in it, and stray bytes before the frame. -/
theorem witness_HostFrameIsTakenWhole : (List.replicate 253 (0 : Byte)).length ≤ 253 ∧ (∀ b ∈ [(3 : Byte)], b ≠ 2) ∧
    site.host.gathered = [] ∧ (List.replicate 7 (⟨0x80, 0, []⟩ : Request)).length < 8 ∧
    8 ≤ (List.replicate 8 (⟨0x80, 0, []⟩ : Request)).length := by decide +kernel

theorem witness_UnknownRequestIsAnswered : requestRow 0x94 = none ∧ site.hasTurn ⟨0x94, 1, [1, 2]⟩ :=
  ⟨by decide +kernel, .inl rfl⟩

/-- `site` with a list of `n` + 1 requests, READ ALERTS at the head. -/
def waiting (n : Nat) : State :=
  { site with host := { site.host with requests := ⟨0x80, 1, []⟩ :: List.replicate n ⟨0x16, 2, []⟩ } }

theorem witness_RequestBehindAnotherWaits : (Instr.start 3 []).request = some ⟨0x90, 3, []⟩ ∧
    (waiting 6).host.requests = ⟨0x80, 1, []⟩ :: List.replicate 6 ⟨0x16, 2, []⟩ ∧
    (⟨0x80, 1, []⟩ : Request) ≠ ⟨0x90, 3, []⟩ ∧ (List.replicate 6 (⟨0x16, 2, []⟩ : Request)).length < 7 ∧
    7 ≤ (List.replicate 7 (⟨0x16, 2, []⟩ : Request)).length := by decide +kernel

theorem witness_WrongLengthIsRefused : (Instr.stage 3 [1, 2, 3]).request = some ⟨0x13, 3, [1, 2, 3]⟩ ∧
    requestRow 0x13 = some (everyPhase 0x13 4) ∧ lengthAgrees 0x13 [1, 2, 3] = false ∧
    site.hasTurn ⟨0x13, 3, [1, 2, 3]⟩ ∧ ∀ c n b, Instr.stage 3 [1, 2, 3] ≠ .unknownRequestCode c n b :=
  ⟨rfl, by decide +kernel, by decide +kernel, .inl rfl, fun _ _ _ h => by cases h⟩

theorem witness_WrongPhaseIsRefused : (Instr.start 3 []).request = some ⟨0x90, 3, []⟩ ∧ lengthAgrees 0x90 [] = true ∧
    admitted 0x90 site.phase = false ∧ site.hasTurn ⟨0x90, 3, []⟩ ∧ ∀ c n b, Instr.start 3 [] ≠ .unknownRequestCode c n b :=
  ⟨rfl, by decide +kernel, by decide +kernel, .inl rfl, fun _ _ _ h => by cases h⟩

/-- `place` is the FRONT of a double-deep location: a pallet of class 3 stands at the REAR, and one of class 2 in front. -/
def deepStocked : State :=
  (((site.setAisle 0 ⟨some ⟨2, 4, 2, 3⟩, some true, some 0, 0, 32⟩).putSlot 0 { place with depth := .rear }
    ⟨.occupied, 3, some 3, none, false⟩).putSlot 0 place ⟨.occupied, 3, some 2, none, false⟩).takeConditions

/-- The descriptor of a RETRIEVE of tag 7, class 3, on that REAR slot, whose packed address is 042080h. -/
def rearBody : List Byte := [0, 0, 0, 7, 2, 0x04, 0x20, 0x80, 0x30, 0, 0, 0, 0, 0]

/-- `deepStocked` when the RETRIEVE of `rearBody` has been taken into record 0. -/
def deepPosted : State :=
  (((deepStocked.popRequest.takeRecord 0 (readDescriptor rearBody 0).readyRetrieve).putSlot 0 { place with depth := .rear }
    { deepStocked.slot 0 { place with depth := .rear } with reservation := some ⟨.outOf, 0⟩ }).joinPosted
      (readDescriptor rearBody 0))

/-- On a FRONT slot, and on a REAR slot behind an OCCUPIED one. -/
theorem witness_PostedRetrieveBecomesReady : stocked.Settled ∧ stocked.NothingPending ∧ retrieveBody.length = 14 ∧
    stocked.checkPost (readDescriptor retrieveBody 0) = none ∧ (readDescriptor retrieveBody 0).isRetrieve = true ∧
    (readDescriptor retrieveBody 0).address.pos.depth = .front ∧
    (stocked.slot (readDescriptor retrieveBody 0).address.aisle (readDescriptor retrieveBody 0).address.pos).condition =
      .occupied ∧ stocked.hasTurn ⟨0x10, 1, retrieveBody⟩ ∧ stocked.hasTurn ⟨0x11, 1, 1 :: retrieveBody⟩ ∧
    (deepStocked.Settled ∧ deepStocked.NothingPending ∧ deepStocked.hasTurn ⟨0x10, 1, rearBody⟩ ∧
      deepStocked.checkPost (readDescriptor rearBody 0) = none ∧ (readDescriptor rearBody 0).isRetrieve = true ∧
      (readDescriptor rearBody 0).address = ⟨0, { place with depth := .rear }⟩ ∧
      (deepStocked.slot 0 { place with depth := .rear }).condition = .occupied ∧
      deepStocked.slot 0 place = ⟨.occupied, 3, some 2, none, false⟩ ∧ deepStocked.lowestFree = 0 ∧
      deepPosted.chooseSlot 0 2 (place.bay, place.level) (some { place with depth := .rear }) =
        some ⟨.right, 1, 2, .rear⟩) :=
  ⟨settled _ (by decide +kernel), by unfold State.NothingPending; decide +kernel, by decide +kernel,
    by decide +kernel, by decide +kernel, by decide +kernel, by decide +kernel, .inl rfl, .inl rfl,
    settled _ (by decide +kernel), by unfold State.NothingPending; decide +kernel, .inl rfl, by decide +kernel⟩

/-- A READY RETRIEVE of tag 7 on `place`. -/
def readySite : State := withJob site (retrieve .ready) full

/-- Field set 3 names priority and attribute; priority 7 is the greatest. -/
theorem witness_AmendWritesTheNamedFields : readySite.Settled ∧ readySite.hasTurn ⟨0x12, 1, [0, 0, 0, 7, 3, 7, 0, 1, 0]⟩ ∧
    readySite.byTag (longAt [0, 0, 0, 7, 3, 7, 0, 1, 0] 0) = some (0, retrieve .ready) ∧
    readySite.job 0 = some (retrieve .ready) ∧ (retrieve .ready).kind ≠ .relocate ∧
    1 ≤ byteAt [0, 0, 0, 7, 3, 7, 0, 1, 0] 4 % 4 ∧ byteAt [0, 0, 0, 7, 3, 7, 0, 1, 0] 4 / 4 % 2 = 0 ∧
    byteAt [0, 0, 0, 7, 3, 7, 0, 1, 0] 5 ≤ 7 :=
  ⟨settled _ (by decide +kernel), .inl rfl, by decide +kernel⟩

/-- An EXPLICIT STORE that waits NOT_STAGED. -/
def unstaged : Job := { store .pending with reason := some .notStaged, staged := some false }

/-- A CHOSEN STORE that waits NOT_STAGED, of a load class that every slot takes, and of one that none takes. -/
def unplaced (loadClass : Nat) : Job := { unstaged with choice := some .chosen, slot := none, loadClass := loadClass }

/-- `site` with that store alone. -/
def unplacedSite (loadClass : Nat) : State := withJob site (unplaced loadClass) ⟨.empty, 3, none, none, false⟩

theorem witness_StagedStoreBecomesReady : (withJob site unstaged kept).Settled ∧
    (withJob site unstaged kept).hasTurn ⟨0x13, 1, [0, 0, 0, 7]⟩ ∧
    ((withJob site unstaged kept).byTag (longAt [0, 0, 0, 7] 0) = some (0, unstaged) ∧
      (withJob site unstaged kept).job 0 = some unstaged ∧ unstaged.kind = .store ∧ unstaged.choice = some .explicit ∧
      unstaged.slot = some place ∧ place.depth = .front ∧ (withJob site unstaged kept).doubleDeep 0 = false ∧
      ((withJob site unstaged kept).slot 0 place).condition ≠ .blocked ∧ unstaged.state = .pending ∧
      unstaged.reason = some .notStaged ∧ unstaged.staged = some false ∧ unstaged.withdrawRequested = false) ∧
    (unplacedSite 3).Settled ∧ (unplacedSite 4).Settled ∧ (unplacedSite 3).hasTurn ⟨0x13, 1, [0, 0, 0, 7]⟩ ∧
    ((unplacedSite 3).byTag (longAt [0, 0, 0, 7] 0) = some (0, unplaced 3) ∧ (unplacedSite 3).job 0 = some (unplaced 3) ∧
      (∀ e ∈ (unplacedSite 3).jobs, e.2.state = .pending → e.1 = 0) ∧ rising (unplacedSite 3).jobs = true ∧
      (unplacedSite 3).chooseSlot 0 3 (0, 0) none = some ⟨.left, 0, 0, .front⟩ ∧
      (unplacedSite 4).chooseSlot 0 4 (0, 0) none = none) :=
  ⟨settled _ (by decide +kernel), .inl rfl, by decide +kernel, settled _ (by decide +kernel), settled _ (by decide +kernel), .inl rfl,
    by decide +kernel⟩

/-- A RETRIEVE on the REAR slot of `deepStocked`, in record 0, waiting for the relocation in record 1. -/
def linkedSite : State :=
  ({ (((deepStocked.putSlot 0 { place with depth := .rear } ⟨.occupied, 3, some 3, some ⟨.outOf, 0⟩, false⟩).putSlot 0 place
      ⟨.occupied, 3, some 2, some ⟨.outOf, 1⟩, false⟩).putSlot 0 ⟨.right, 1, 2, .rear⟩
      ⟨.empty, 3, none, some ⟨.into, 1⟩, false⟩) with
    jobs := [(0, { retrieve .pending with
        slot := some { place with depth := .rear }, reason := some .prerequisite, link := some 1 }),
      (1, { (readDescriptor rearBody 0).relocation 0 1 place ⟨.right, 1, 2, .rear⟩ 2 with link := some 0 })]
    freeCount := 510 } : State).takeConditions

/-- A READY one, and one that waits for its relocation. -/
theorem witness_WithdrawnReadyJobIsDone : readySite.Settled ∧ readySite.hasTurn ⟨0x14, 1, [0, 0, 0, 7]⟩ ∧
    readySite.NothingPending ∧ (readySite.byTag (longAt [0, 0, 0, 7] 0) = some (0, retrieve .ready) ∧
      readySite.job 0 = some (retrieve .ready) ∧ (retrieve .ready).group = none ∧ (retrieve .ready).link = none ∧
      (retrieve .ready).slot = some place ∧ (retrieve .ready).target = none ∧ (retrieve .ready).choice = none ∧
      (readySite.slot 0 place).reservation = some ⟨.outOf, 0⟩) ∧
    linkedSite.Settled ∧ linkedSite.hasTurn ⟨0x14, 1, [0, 0, 0, 7]⟩ ∧
    ((linkedSite.byTag (longAt [0, 0, 0, 7] 0)).map Prod.fst = some 0 ∧ rising linkedSite.jobs = true ∧
      (∀ e ∈ linkedSite.jobs, e.2.state = .pending → e.1 = 0) ∧
      (linkedSite.slot 0 { place with depth := .rear }).reservation = some ⟨.outOf, 0⟩ ∧
      (linkedSite.job 1).map Job.kind = some .relocate ∧ (linkedSite.job 1).map Job.state = some .ready ∧
      (linkedSite.slot 0 place).reservation = some ⟨.outOf, 1⟩ ∧
      (linkedSite.slot 0 ⟨.right, 1, 2, .rear⟩).reservation = some ⟨.into, 1⟩) :=
  ⟨settled _ (by decide +kernel), .inl rfl, by unfold State.NothingPending; decide +kernel, by decide +kernel,
    settled _ (by decide +kernel), .inl rfl, by decide +kernel⟩

/-- `job` on trip 1 of crane 0, the trip with no exchange open. -/
def onTrip (job : Job) (r : Slot) (accepted : Bool) (leg : Leg) (x : Option Exchange) : State :=
  ((withJob site job r).setLine 0
    { craneUp with
      trip := some ⟨1, [leg], none, accepted, true⟩, lastTrip := 1, exchange := x,
      ctx := { craneUp.ctx with work := if accepted then .busy else .ordering } }).takeConditions

/-- A leg of record 0 with no mark set. -/
def plainLeg : Leg := ⟨1, 0, false, false, false⟩

def activeRetrieve : Job := { retrieve .active with assignment := some ⟨0, 1, 1⟩ }

def activeStore : Job := { store .active with assignment := some ⟨0, 1, 1⟩ }

theorem witness_WithdrawnActiveJobIsCancelled : (onTrip activeRetrieve full true plainLeg none).Settled ∧
    (onTrip activeRetrieve full true plainLeg none).hasTurn ⟨0x14, 1, [0, 0, 0, 7]⟩ ∧
    (onTrip activeRetrieve full true plainLeg none).byTag (longAt [0, 0, 0, 7] 0) = some (0, activeRetrieve) ∧
    (onTrip activeRetrieve full true plainLeg none).job 0 = some activeRetrieve ∧ activeRetrieve.kind ≠ .relocate ∧
    activeRetrieve.state = .active ∧ activeRetrieve.withdrawRequested = false ∧
    activeRetrieve.assignment = some ⟨0, 1, 1⟩ ∧
    ((onTrip activeRetrieve full true plainLeg none).line 0).link = .up ∧
    ((onTrip activeRetrieve full true plainLeg none).line 0).exchange = none ∧
    ((onTrip activeRetrieve full true plainLeg none).line 0).stale = [] ∧
    ((onTrip activeRetrieve full true plainLeg none).line 0).trip = some ⟨1, [plainLeg], none, true, true⟩ :=
  ⟨settled _ (by decide +kernel), .inl rfl, by decide +kernel⟩

/-- A DONE record of tag 7. -/
def doneSite : State :=
  (withJob site { retrieve .done with outcome := some .completed } ⟨.empty, 3, none, none, false⟩)

theorem witness_RetiredRecordIsFree : doneSite.Settled ∧ doneSite.hasTurn ⟨0x17, 1, [0, 0, 0, 7]⟩ ∧
    doneSite.NothingPending ∧
    doneSite.byTag (longAt [0, 0, 0, 7] 0) = some (0, { retrieve .done with outcome := some .completed }) :=
  ⟨settled _ (by decide +kernel), .inl rfl, by unfold State.NothingPending; decide +kernel, by decide +kernel⟩

def strandedStore : Job := { store .stranded with assignment := some ⟨0, 1, 1⟩ }

def strandedSite : State := withJob site strandedStore kept

theorem witness_VerdictSettlesStrandedStore : strandedSite.Settled ∧ strandedSite.hasTurn ⟨0x18, 1, [0, 0, 0, 7, 2]⟩ ∧
    strandedSite.hasTurn ⟨0x18, 1, [0, 0, 0, 7, 1]⟩ ∧ strandedSite.NothingPending ∧
    strandedSite.byTag (longAt [0, 0, 0, 7, 2] 0) = some (0, strandedStore) ∧
    strandedSite.byTag (longAt [0, 0, 0, 7, 1] 0) = some (0, strandedStore) ∧
    strandedSite.job 0 = some strandedStore ∧ strandedStore.kind = .store ∧ strandedStore.state = .stranded ∧
    strandedStore.withdrawRequested = false ∧ strandedStore.group = none ∧ strandedStore.link = none ∧
    strandedStore.slot = some place ∧ (strandedSite.slot 0 place).reservation = some ⟨.into, 0⟩ ∧
    byteAt [0, 0, 0, 7, 2] 4 = 2 ∧ byteAt [0, 0, 0, 7, 1] 4 = 1 :=
  ⟨settled _ (by decide +kernel), .inl rfl, .inl rfl, by unfold State.NothingPending; decide +kernel, by decide +kernel⟩

/-- The highest crane, aisle and group numbers, a slot at the geometry's last bay, a DONE list with one entry and one
without. -/
theorem witness_RecordQueriesChangeNothing :
    (readySite.byTag (longAt [0, 0, 0, 7] 0) = some (0, retrieve .ready) ∧
      readySite.job 0 = some (retrieve .ready) ∧ readySite.byTag (longAt [0, 0, 0, 8] 0) = none) ∧
    (doneSite.done = [0] ∧ (doneSite.job 0).isSome = true ∧ readySite.done = []) ∧
    (site.hasSlot (readSlotAddress (tripleAt [0x00, 0x20, 0xC0] 0)).aisle
      (readSlotAddress (tripleAt [0x00, 0x20, 0xC0] 0)).pos = true) ∧
    byteAt [16] 0 = (15 : Fin 16).val + 1 ∧ byteAt [15] 0 = (15 : Fin 16).val ∧ byteAt [7] 0 = (7 : Fin 8).val := by
  decide +kernel

/-- The smallest geometry, the largest one aisle can have, one that is too large beside the others, and levels 0. -/
theorem witness_SetAisleBuildsTheAisle : State.reset.phase = .loading ∧ State.reset.hasTurn ⟨0x20, 1, [5, 1, 1, 1, 0]⟩ ∧
    (byteAt [5, 1, 1, 1, 0] 0 = (5 : Fin 16).val ∧ 1 ≤ byteAt [5, 1, 1, 1, 0] 1 ∧
      State.reset.otherSlots 5 + 2 * 1 * 1 * 1 ≤ 65536) ∧
    (byteAt [15, 32, 128, 2, 15] 1 ≤ 32 ∧ byteAt [15, 32, 128, 2, 15] 2 ≤ 128 ∧ byteAt [15, 32, 128, 2, 15] 3 ≤ 2 ∧
      byteAt [15, 32, 128, 2, 15] 4 ≤ 15 ∧ State.reset.otherSlots 15 + 2 * 32 * 128 * 2 ≤ 65536) ∧
    (65536 < ({ State.reset with aisles := Vector.replicate 16 ⟨some ⟨32, 128, 1, 0⟩, some true, none, 0, 8192⟩ } :
      State).otherSlots 15 + 2 * 32 * 128 * 2) ∧ byteAt [5, 0, 0, 0, 0] 1 = 0 :=
  ⟨rfl, .inl rfl, by decide +kernel, by decide +kernel, by decide +kernel, by decide +kernel⟩

/-- An OCCUPIED slot taken, a condition out of range refused, and a slot beyond the last bay refused. -/
theorem witness_LoadSlotsWritesTheEntry :
    ({ site with phase := .loading } : State).hasTurn ⟨0x21, 1, [0, 1, 0x00, 0x20, 0x80, 1, 15, 15]⟩ ∧
    (byteAt [0, 1, 0x00, 0x20, 0x80, 1, 15, 15] 0 = (0 : Fin 16).val ∧ byteAt [0, 1, 0x00, 0x20, 0x80, 1, 15, 15] 1 = 1 ∧
      (site.aisle 0).geometry.isSome = true ∧
      readSlotValues [0, 1, 0x00, 0x20, 0x80, 1, 15, 15] 5 = some ⟨.occupied, 15, some 15⟩ ∧
      site.hasSlot 0 (readSlotAddress (tripleAt [0, 1, 0x00, 0x20, 0x80, 1, 15, 15] 2)).pos = true) ∧
    readSlotValues [0, 1, 0x00, 0x20, 0x80, 3, 15, 15] 5 = none ∧
    site.hasSlot 0 (readSlotAddress (tripleAt [0, 1, 0x00, 0x21, 0x00, 1, 15, 15] 2)).pos = false :=
  ⟨.inl rfl, by decide +kernel⟩

/-- A RETRIEVE that waits SLOT_BLOCKED on `place`. -/
def blockedRetrieve : Job := { retrieve .pending with reason := some .slotBlocked }

def blockedSite : State := withJob site blockedRetrieve ⟨.blocked, 3, none, some ⟨.outOf, 0⟩, false⟩

theorem witness_SetSlotWritesTheRecord : site.Settled ∧ site.hasTurn ⟨0x22, 1, [0x00, 0x20, 0x80, 2, 0, 0]⟩ ∧
    site.NothingPending ∧ (site.phase ≠ .loading ∧
      readSlotValues [0x00, 0x20, 0x80, 2, 0, 0] 3 = some ⟨.blocked, 0, none⟩ ∧
      readSlotAddress (tripleAt [0x00, 0x20, 0x80, 2, 0, 0] 0) = ⟨0, place⟩ ∧ site.hasSlot 0 place = true ∧
      (site.slot 0 place).reservation = none ∧ site.rearAtRest 0 place = true) ∧
    blockedSite.Settled ∧ blockedSite.hasTurn ⟨0x22, 1, [0x00, 0x20, 0x80, 1, 3, 3]⟩ ∧ (blockedSite.phase ≠ .loading ∧
      readSlotValues [0x00, 0x20, 0x80, 1, 3, 3] 3 = some ⟨.occupied, 3, some 3⟩ ∧
      blockedSite.hasSlot 0 place = true ∧ blockedSite.rearAtRest 0 place = true ∧ rising blockedSite.jobs = true ∧
      (∀ e ∈ blockedSite.jobs, e.2.state = .pending → e.1 = 0) ∧
      (blockedSite.slot 0 place).reservation = some ⟨.outOf, 0⟩ ∧ blockedSite.job 0 = some blockedRetrieve) :=
  ⟨settled _ (by decide +kernel), .inl rfl, by unfold State.NothingPending; decide +kernel, by decide +kernel,
    settled _ (by decide +kernel), .inl rfl, by decide +kernel⟩

/-- A class the slots take, and one above every slot class. -/
theorem witness_StoreChoiceIsTheNearestCandidate : (site.aisle 0).geometry = some ⟨2, 4, 1, 3⟩ ∧
    site.chooseSlot 0 3 (0, 0) none = some ⟨.left, 0, 0, .front⟩ ∧ site.chooseSlot 0 4 (0, 0) none = none := by
  decide +kernel

theorem witness_DispatchSettingsAreWritten : site.hasTurn ⟨0x30, 1, [7, 1, 0xFF, 0xFF, 0, 0]⟩ ∧
    site.hasTurn ⟨0x31, 1, [1, 0, 0x20, 0, 0, 0, 0xFF, 0xFF, 0]⟩ ∧
    byteAt [7, 1, 0xFF, 0xFF, 0, 0] 0 = (7 : Fin 8).val ∧ byteAt [7, 1, 0xFF, 0xFF, 0, 0] 1 = true.toNat ∧
    byteAt [1, 0, 0x20, 0, 0, 0, 0xFF, 0xFF, 0] 8 = false.toNat := ⟨.inl rfl, .inl rfl, by decide +kernel⟩

theorem witness_QueryDispatchReportsAndChangesNothing : site.hasTurn ⟨0x32, 1, []⟩ := .inl rfl

/-- The one candidate of a round with one READY job, with the greatest weights R76 allows and the greatest priority. -/
def greedy : State :=
  { withJob site { retrieve .ready with priority := 7, age := 65535 } full with
    disp := { site.disp with weights := ⟨255, 8191, 65535, 65535, true⟩ } }

theorem witness_ScoresLieWithinTheLimits : greedy.disp.weights.wp ≤ 8191 ∧ greedy.disp.weights.wh ≤ 65535 ∧
    (∀ e ∈ greedy.jobs, e.2.priority ≤ 7) ∧
    (⟨0, 0, [0], 10800 - 87337, 65535, 0, 0⟩ : Candidate) ∈ greedy.candidates := by decide +kernel

/-- Two candidates of equal score, the older one taken. -/
theorem witness_RoundTakesTheBestCandidate :
    bestCandidate [⟨0, 0, [1], 5, 1, 1, 1⟩, ⟨1, 0, [2], 5, 2, 2, 2⟩] = some ⟨1, 0, [2], 5, 2, 2, 2⟩ := by decide +kernel

/-- `site` with a pass due and no job; the same with one READY RETRIEVE. -/
def passDue (s : State) : State := { s with disp := { s.disp with passesDue := 1 } }

/-- What the pass leaves of `passDue readySite` before the end of its event. -/
def assigned : State :=
  (({ passDue readySite with disp := { (passDue readySite).disp with passesDue := 0 } }.setJob 0
    { retrieve .ready with state := .ordered, assignment := some ⟨0, 1, 1⟩, lastScore := some 10800 }).setLine 0
    { (passDue readySite).line 0 with
      trip := some ⟨1, [plainLeg], none, false, true⟩
      lastTrip := 1
      ctx := { ((passDue readySite).line 0).ctx with work := .ordering }
      exchange := some ⟨.order 1, Telegram.order 1 none [⟨1, .retrieve, 0, some place, none⟩], 0, 250⟩
      sent := ((passDue readySite).line 0).sent ++ [Telegram.order 1 none [⟨1, .retrieve, 0, some place, none⟩]] })

theorem witness_PassServesItsCandidates : (passDue site).Settled ∧ (passDue readySite).Settled ∧
    (0 < (passDue site).disp.passesDue ∧ (passDue site).candidates = []) ∧
    (0 < (passDue readySite).disp.passesDue ∧
      (passDue readySite).candidates = [⟨0, 0, [0], 10800, 0, 0, 0⟩] ∧
      (passDue readySite).job 0 = some (retrieve .ready) ∧ rising (passDue readySite).jobs = true ∧
      ((passDue readySite).line 0).ctx.aisle = .inAisle 0 ∧ (passDue readySite).holdsLock 0 0 = true ∧
      (passDue readySite).nextTripNumber 0 = some 1 ∧ ((passDue readySite).line 0).link = .up ∧
      ((passDue readySite).line 0).exchange = none ∧ assigned.candidates = []) :=
  ⟨settled _ (by decide +kernel), settled _ (by decide +kernel), by decide +kernel, by decide +kernel⟩

/-- The HOLD input and the debounce of `site` set by hand. -/
def holding (input actedOn : HoldLevel) (settling : Bool) : State :=
  { site with disp := { site.disp with holdInput := input, actedOn := actedOn, settling := settling } }

/-- An edge either way in OPEN, a change while settling, a repeat, and the three ends of a settling period. -/
theorem witness_HoldInputIsDebounced : (∀ i a k, (holding i a k).Settled) ∧
    ((holding .released .released false).disp.settling = false ∧
      (holding .released .released false).disp.actedOn = .released) ∧
    (holding .asserted .asserted false).disp.actedOn = .asserted ∧
    ((holding .released .asserted true).disp.settling = true) ∧
    (HoldLevel.released = (holding .released .released false).disp.actedOn) ∧
    ((holding .asserted .asserted true).disp.holdInput = (holding .asserted .asserted true).disp.actedOn) ∧
    ((holding .asserted .released true).disp.holdInput = .asserted) :=
  ⟨fun i a k => settled _ (by cases i <;> cases a <;> cases k <;> decide +kernel), by decide +kernel⟩

/-- `site` with group 16 open at `next`, with `ahead` finished ahead. -/
def grouped (next : Nat) (ahead : List Nat) (members limit timer : Nat) : State :=
  site.setGroup 15 ⟨members, some ⟨next, 32, ahead, limit, timer, false⟩⟩

theorem witness_GroupsOpenAndClose : site.hasTurn ⟨0x40, 1, [16, 0xFF, 0xFF, 33, 0, 0]⟩ ∧
    (byteAt [16, 0xFF, 0xFF, 33, 0, 0] 0 = (15 : Fin 16).val + 1 ∧ 1 ≤ wordAt [16, 0xFF, 0xFF, 33, 0, 0] 1 ∧
      (site.group 15).opened = none) ∧
    (grouped 1 [] 0 0 0).hasTurn ⟨0x41, 1, [16]⟩ ∧
    (((grouped 1 [] 0 0 0).group 15).opened ≠ none ∧ ((grouped 1 [] 0 0 0).group 15).members = 0) ∧
    ((grouped 1 [] 1 0 0).group 15).members ≠ 0 := ⟨.inl rfl, by decide +kernel, .inl rfl, by decide +kernel⟩

/-- The farthest rank beyond the next rank, the next rank itself, and the next rank 65535. -/
theorem witness_SkippedRankIsFinished : (grouped 1 [] 0 0 0).hasTurn ⟨0x42, 1, [16, 0, 32]⟩ ∧
    (byteAt [16, 0, 32] 0 = (15 : Fin 16).val + 1 ∧
      ((grouped 1 [] 0 0 0).group 15).opened = some ⟨1, 32, [], 0, 0, false⟩ ∧
      (grouped 1 [] 0 0 0).rankHeld 15 32 = false ∧ 1 < wordAt [16, 0, 32] 1 ∧ wordAt [16, 0, 32] 1 ≤ 1 + 31) ∧
    (wordAt [16, 0, 1] 1 = 1 ∧ (grouped 1 [] 0 0 0).rankHeld 15 1 = false) ∧
    (wordAt [16, 0xFF, 0xFF] 1 = 65535 ∧ (grouped 65535 [] 0 0 0).rankHeld 15 65535 = false) :=
  ⟨.inl rfl, by decide +kernel⟩

/-- Next rank 5 with 6, 7 and 36 (5 + 31) done ahead moves to 8; next rank 65534 with nothing done ahead to 65535. -/
theorem witness_AdvancePassesFinishedRanks : [6, 7, 36].Pairwise (· < ·) ∧ (∀ r ∈ [6, 7, 36], 5 < r ∧ r ≤ 5 + 31) ∧
    8 ∉ [6, 7, 36] ∧ (∀ r, 5 < r → r < 8 → r ∈ [6, 7, 36]) ∧ (∀ r, 65534 < r → r < 65535 → r ∈ ([] : List Nat)) :=
  ⟨by decide, by decide, by decide, fun r h g => by
    have : r = 6 ∨ r = 7 := by omega
    rcases this with rfl | rfl <;> decide, fun r h g => by omega⟩

/-- A timer at its limit; a CLOSED group; a timer one second below its limit. -/
theorem witness_StallIsReportedOnce : (grouped 1 [] 1 60 60).Settled ∧ (grouped 1 [] 1 60 59).Settled ∧
    ((grouped 1 [] 1 60 60).group 15).opened = some ⟨1, 32, [], 60, 60, false⟩ ∧
    ((grouped 1 [] 1 60 59).group 15).opened = some ⟨1, 32, [], 60, 59, false⟩ ∧ (site.group 15).opened = none :=
  ⟨settled _ (by decide +kernel), settled _ (by decide +kernel), by decide +kernel⟩

/-- Aisle 0 disabled, so that YES changes it and NO does not; and an aisle that is not configured. -/
theorem witness_AisleIsEnabled : site.hasTurn ⟨0x50, 1, [0, 1]⟩ ∧
    (byteAt [0, 1] 0 = (0 : Fin 16).val ∧ byteAt [0, 1] 1 = true.toNat ∧ byteAt [0, 0] 1 = false.toNat ∧
      (site.aisle 0).geometry ≠ none ∧ (site.aisle 0).enabled = some true ∧
      ((site.setAisle 0 { site.aisle 0 with enabled := some false }).aisle 0).enabled = some false ∧
      (site.aisle 15).geometry = none) := ⟨.inl rfl, by decide +kernel⟩

theorem witness_CarIsConfiguredAndRestarted : site.Settled ∧ site.hasTurn ⟨0x52, 1, [0xEA, 0x61, 0, 0, 0, 9]⟩ ∧
    site.hasTurn ⟨0x54, 1, []⟩ ∧ site.car.jobTimer = none ∧ site.car.queue = [] :=
  ⟨settled _ (by decide +kernel), .inl rfl, .inl rfl, rfl, rfl⟩

/-- The car at work `work` on order 5 for crane 0, from aisle 0 to aisle 1, with the exchange `x`. -/
def carAt (work : CarWork) (x : Option CarExchange) : State :=
  { site with car := { Car.powerOn with
      link := .up
      mode := .auto
      work := work
      exchange := x
      orderNumber := 5
      current := some ⟨5, 0, 0, 1, 1⟩
      configured := true } }

/-- The CAR ORDER of that request, awaiting its answer. -/
def carOrder : CarExchange := ⟨true, .order 5 0 0 1, 0, 250⟩

/-- The trip that waits for the car. -/
def ridingTrip : Trip := ⟨1, [plainLeg], some ⟨some 0, 1, .serving⟩, true, true⟩

def rider (s : State) : State := s.setLine 0 { craneUp with trip := some ridingTrip, lastTrip := 1 }

theorem witness_CarOrderIsAnswered : (rider (carAt .ordering (some carOrder))).Settled ∧
    (rider (carAt .ordering (some carOrder))).car.link = .up ∧
    (rider (carAt .ordering (some carOrder))).car.current = some ⟨5, 0, 0, 1, 1⟩ ∧ 5 = (5 : Byte).toNat ∧
    (rider (carAt .ordering (some carOrder))).car.work = .ordering ∧
    (rider (carAt .ordering (some carOrder))).car.exchange = some carOrder ∧ carOrder.isOrder = true ∧
    (rider (carAt .ordering (some carOrder))).car.orderWaiting = false ∧
    readCarRefusal (3 : Byte).toNat = some .manual ∧ readCarRefusal (2 : Byte).toNat = some .fault ∧
    ((rider (carAt .ordering (some carOrder))).line 0).trip = some ridingTrip ∧ ridingTrip.number = 1 ∧
    ridingTrip.transfer = some ⟨some 0, 1, .serving⟩ ∧ (rider (carAt .ordering (some carOrder))).car.fault = false :=
  ⟨settled _ (by decide +kernel), by decide +kernel⟩

/-- Docking at the from aisle; boarding while crane 0 holds its lock; alighting while it holds only the to aisle's. -/
theorem witness_CarPhasesAreApplied : (carAt .fetching none).Settled ∧ (carAt .boarding none).Settled ∧
    (((carAt .alighting none).setAisle 0 { site.aisle 0 with lock := none }).setAisle 1
      { site.aisle 0 with lock := some 0 }).Settled ∧
    (carAt .fetching none).car.current = some ⟨5, 0, 0, 1, 1⟩ ∧ (carAt .fetching none).car.exchange = none ∧
    (carAt .boarding none).holdsLock 0 0 = true ∧ ((carAt .alighting none).line 0).trip = none ∧
    (((carAt .alighting none).setAisle 0 { site.aisle 0 with lock := none }).setAisle 1
      { site.aisle 0 with lock := some 0 }).holdsLock 0 1 = true ∧
    (∀ a, a ≠ 1 → (((carAt .alighting none).setAisle 0 { site.aisle 0 with lock := none }).setAisle 1
      { site.aisle 0 with lock := some 0 }).holdsLock 0 a = false) ∧ (carAt .alighting none).car.queue = [] :=
  ⟨settled _ (by decide +kernel), settled _ (by decide +kernel), settled _ (by decide +kernel), by decide +kernel⟩

/-- Aisles 0 and 1; crane 0 holds the lock of aisle 0, `holder` that of aisle 1, and crane 5's link is `link`. -/
def twoAisles (holder : Option (Fin 8)) (link : LinkState) : State :=
  ((site.setAisle 1 { site.aisle 0 with lock := holder }).setLine 5 { craneUp with link := link }).takeConditions

/-- Crane 0 with a trip to aisle 1 whose transfer stands at a stage. -/
def crossing (stage : TransferStage) : State :=
  (({ withJob (twoAisles (some 0) .up) { activeRetrieve with aisle := 1 } full with
    car := { Car.powerOn with configured := true } }).setLine 0 { craneUp with
    trip := some ⟨1, [plainLeg], some ⟨some 0, 1, stage⟩, true, true⟩
    ctx := { craneUp.ctx with work := .busy } }).takeConditions

/-- `crossing` with crane 0 at the head of the car queue, behind a car that has last had order 255. -/
def crossingQueued : State :=
  { crossing .queued with car := { (crossing .queued).car with queue := [⟨0, 0, 1⟩], orderNumber := 255, notReady := true } }

/-- The current request for crane 0, with the car link LOST. -/
def crossingServed (work : CarWork) : State :=
  ({ crossing .serving with car := { (crossing .serving).car with
    link := .lost, current := some ⟨1, 0, 0, 1, 1⟩, work := work } }).takeConditions

/-- An idle car; a waiting queue with the order in hand 0 and 1; a request that the car does not know, and one it knows. -/
theorem witness_CarStatusIsStored : site.Settled ∧ crossingQueued.Settled ∧ (crossingServed .carrying).Settled ∧
    (crossingServed .ordering).Settled ∧
    (readCarStatus 0 15 0 0 0 = some ⟨.auto, 15, false, 0, none⟩ ∧
      readCarStatus 1 0 1 255 4 = some ⟨.manual, 0, true, 255, some .alighted⟩ ∧ site.car.current = none ∧
      site.car.queue = [] ∧ site.car.exchange = none ∧ site.car.fault = false) ∧
    (crossingQueued.car.current = none ∧ crossingQueued.car.queue = [⟨0, 0, 1⟩] ∧ crossingQueued.car.work = .idle ∧
      crossingQueued.car.exchange = none ∧ crossingQueued.car.configured = true ∧
      (crossingQueued.line 0).trip = some ⟨1, [plainLeg], some ⟨some 0, 1, .queued⟩, true, true⟩ ∧
      nextOrderNumber 255 0 = 1 ∧ nextOrderNumber 255 1 = 2) ∧
    ((crossingServed .carrying).car.current = some ⟨1, 0, 0, 1, 1⟩ ∧ (crossingServed .carrying).car.link ≠ .up ∧
      (crossingServed .carrying).car.work ≠ .idle ∧ (crossingServed .carrying).car.exchange = none ∧
      readCarStatus 0 0 0 1 0 = some ⟨.auto, 0, false, 1, none⟩) :=
  ⟨settled _ (by decide +kernel), settled _ (by decide +kernel), settled _ (by decide +kernel),
    settled _ (by decide +kernel), by decide +kernel⟩

/-- Resends one below the limit and at it; a silent line that is UP and one that is not; a running car job timer. -/
theorem witness_CarTimersExpire : (carAt .ordering (some carOrder)).Settled ∧ (carAt .fetching none).Settled ∧
    (carAt .ordering (some { carOrder with resends := 2 })).car.exchange = some { carOrder with resends := 2 } ∧
    2 < site.settings.resendLimit ∧ site.settings.resendLimit ≤ 3 ∧ (carAt .fetching none).car.link = .up ∧
    (carAt .fetching none).car.exchange = none ∧ site.car.link ≠ .up ∧
    ({ site with car := { site.car with jobTimer := some 1799 } } : State).car.jobTimer = some 1799 ∧
    site.car.overdue = false := ⟨settled _ (by decide +kernel), settled _ (by decide +kernel), by decide +kernel⟩

theorem witness_LineSettingsAreWritten : site.hasTurn ⟨0x60, 1, [0, 49, 8, 0x27, 0x11]⟩ := .inl rfl

/-- Crane 7 without a trip; crane 0 with one. -/
theorem witness_RestartedLineStrandsItsTrip : site.Settled ∧ (onTrip activeRetrieve full true plainLeg none).Settled ∧
    site.hasTurn ⟨0x61, 1, [7]⟩ ∧ (onTrip activeRetrieve full true plainLeg none).hasTurn ⟨0x61, 1, [0]⟩ ∧
    byteAt [7] 0 = (7 : Fin 8).val ∧ (site.line 7).trip = none ∧ byteAt [0] 0 = (0 : Fin 8).val ∧
    ((onTrip activeRetrieve full true plainLeg none).line 0).trip = some ⟨1, [plainLeg], none, true, true⟩ ∧
    (onTrip activeRetrieve full true plainLeg none).job 0 = some activeRetrieve :=
  ⟨settled _ (by decide +kernel), settled _ (by decide +kernel), .inl rfl, .inl rfl, by decide +kernel⟩

theorem witness_BasePageStartsIntroduction : site.Settled ∧ (site.line 0).trip = none ∧
    readFlag (pageByte 0x0100070103000000 3) = some true := ⟨settled _ (by decide +kernel), by decide +kernel⟩

/-- `site` with crane 0 INTRODUCING, `n` new pages taken. -/
def introducing (n : Nat) : State :=
  site.setLine 0 { craneUp with link := .introducing, introTimer := some 5000, pagesTaken := n, lastToggle := true }

/-- A repeated toggle, and a new one at places 1 and 2. -/
theorem witness_NextPagesCompleteIntroduction : (introducing 0).Settled ∧ (introducing 1).Settled ∧
    ((introducing 0).line 0).link = .introducing ∧ ((introducing 0).line 0).lastToggle = true ∧
    false ≠ ((introducing 0).line 0).lastToggle ∧ ((introducing 0).line 0).pagesTaken = 0 ∧
    ((introducing 1).line 0).pagesTaken = 1 :=
  ⟨settled _ (by decide +kernel), settled _ (by decide +kernel), by decide +kernel⟩

/-- The open ORDER of trip 1. -/
def orderOpen : Exchange := ⟨.order 1, .order 1 none [], 0, 250⟩

def orderedRetrieve : Job := { retrieve .ordered with assignment := some ⟨0, 1, 1⟩ }

/-- Crane 0 ORDERING, the ORDER of its trip open. -/
def ordering : State := onTrip orderedRetrieve full false plainLeg (some orderOpen)

theorem witness_OrderAckAcceptsTheTrip : ordering.Settled ∧ (ordering.line 0).link = .up ∧
    (ordering.line 0).trip = some ⟨1, [plainLeg], none, false, true⟩ ∧ (ordering.line 0).exchange = some orderOpen ∧
    orderOpen.kind = .order (1 : Byte).toNat ∧ (ordering.line 0).stale = [] ∧ ordering.job 0 = some orderedRetrieve ∧
    orderedRetrieve.withdrawRequested = false := ⟨settled _ (by decide +kernel), by decide +kernel⟩

/-- For each of the four reasons; and a STATUS that reports MANUAL while the ORDER is open. -/
theorem witness_OrderNakDissolvesTheTrip : ordering.Settled ∧ readNakReason (1 : Byte).toNat = some .manual ∧
    readNakReason (4 : Byte).toNat = some .cannot ∧ (ordering.line 0).link = .up ∧
    (ordering.line 0).trip = some ⟨1, [plainLeg], none, false, true⟩ ∧ (ordering.line 0).exchange = some orderOpen ∧
    orderOpen.kind = .order (1 : Byte).toNat ∧ (ordering.line 0).stale = [] ∧ ordering.job 0 = some orderedRetrieve ∧
    orderedRetrieve.withdrawRequested = false ∧ orderedRetrieve.kind ≠ .relocate ∧
    readStatus 1 0 0 0 1 0 0 0 = some ⟨.manual, .inAisle 0, 0, 0, true, false, 0, 0, 0⟩ ∧
    (ordering.aisle 0).geometry.isSome = true ∧ ordering.holdsLock 0 0 = true ∧
    (ordering.line 0).ctx.aisle = .inAisle 0 ∧ (ordering.line 0).reconcileDue = false ∧
    (ordering.line 0).strandedCheck = false ∧
    (ordering.line 0).ctx.newlyActive ⟨.manual, .inAisle 0, 0, 0, true, false, 0, 0, 0⟩ = 0 :=
  ⟨settled _ (by decide +kernel), by decide +kernel⟩

/-- Crane 0 back from an introduction, its job of trip 9 in `aisle`, 0 or 1, STRANDED. -/
def returned (aisle : Fin 16) : State :=
  ((withJob (twoAisles (if aisle = 0 then none else some 0) .up)
    { retrieve .stranded with aisle := aisle, assignment := some ⟨0, 9, 1⟩ } full).setLine 0
      { craneUp with
        reconcileDue := true, strandedCheck := true, ctx := { craneUp.ctx with aisle := .unknown } }).takeConditions

/-- A report of aisle `z` with trip in hand `n`. -/
def reporting (z : Fin 16) (n : Nat) : StatusReport := ⟨.auto, .inAisle z, 0, 0, true, false, 0, n, 0⟩

/-- A report at the last bay and level that a byte can name, without faults and with POSITION newly active; reports of
aisle 1 while its lock is free, held by a LOST crane, and held by an UP one; trips in hand that name a STRANDED job in the
crane's aisle and in another, and none. -/
theorem witness_StatusIsTakenWhole : site.Settled ∧
    (readStatus 0 0 127 31 3 0 0 2 = some ⟨.auto, .inAisle 0, 127, 31, true, true, 0, 0, 2⟩ ∧
      readStatus 0 0 0 0 1 8 0 0 = some ⟨.auto, .inAisle 0, 0, 0, true, false, 8, 0, 0⟩ ∧
      (site.aisle 0).geometry.isSome = true ∧ site.holdsLock 0 0 = true ∧ (site.line 0).link = .up ∧
      (site.line 0).ctx.aisle = .inAisle 0 ∧ (site.line 0).reconcileDue = false ∧ (site.line 0).strandedCheck = false ∧
      (site.line 0).trip = none ∧ (site.line 0).exchange = none ∧ (site.line 0).stale = [] ∧
      (site.line 0).ctx.newlyActive ⟨.auto, .inAisle 0, 127, 31, true, true, 0, 0, 2⟩ = 0 ∧
      (site.line 0).ctx.newlyActive ⟨.auto, .inAisle 0, 0, 0, true, false, 8, 0, 0⟩ ≠ 0) ∧
    (twoAisles none .up).Settled ∧ (twoAisles (some 5) .lost).Settled ∧ (twoAisles (some 5) .up).Settled ∧
    (readStatus 0 1 0 0 1 0 0 0 = some (reporting 1 0) ∧ ((twoAisles none .up).aisle 1).geometry.isSome = true ∧
      (twoAisles none .up).car.current = none ∧ (twoAisles none .up).holdsLock 0 1 = false ∧
      ((twoAisles none .up).line 0).ctx.newlyActive (reporting 1 0) = 0 ∧
      (twoAisles none .up).holdsLock 0 0 = true ∧ (∀ a, a ≠ 1 → a ≠ 0 → (twoAisles none .up).holdsLock 0 a = false) ∧
      ((twoAisles (some 5) .lost).line 5).link = .lost ∧ ((twoAisles (some 5) .up).line 5).link = .up ∧
      ((twoAisles (some 5) .up).aisle 1).lock = some 5 ∧ ((twoAisles (some 5) .up).line 0).ctx.conflict = false) ∧
    (returned 0).Settled ∧ (returned 1).Settled ∧
    (readStatus 0 0 0 0 1 0 9 0 = some (reporting 0 9) ∧ ((returned 0).line 0).strandedCheck = true ∧
      (returned 1).strandedTrip 0 9 = [0] ∧ (returned 0).strandedTrip 0 9 = [0] ∧ (returned 1).holdsLock 0 0 = true ∧
      (∀ a, a ≠ 0 → a ≠ 1 → (returned 1).holdsLock 0 a = false) ∧
      (∀ a, a ≠ 0 → (returned 0).holdsLock 0 a = false) ∧ site.strandedTrip 0 9 = []) :=
  ⟨settled _ (by decide +kernel), by decide +kernel, settled _ (by decide +kernel), settled _ (by decide +kernel),
    settled _ (by decide +kernel), by decide +kernel, settled _ (by decide +kernel), settled _ (by decide +kernel),
    by decide +kernel⟩

/-- `crossing .toHead` with a car that is UP and may be served, and with a transfer that leads to where crane 0 stands. -/
def crossingReady : State :=
  ({ crossing .toHead with car := { (crossing .toHead).car with link := .up, mode := .auto } }).takeConditions

def crossingHere : State :=
  (crossing .toHead).setLine 0 { (crossing .toHead).line 0 with
    trip := some ⟨1, [plainLeg], some ⟨none, 0, .toHead⟩, true, true⟩ }

/-- Crane 0 at the head of aisle 0, with its trip in hand. -/
theorem witness_StatusIsTakenWhole_joins : (crossing .toHead).Settled ∧ crossingReady.Settled ∧ crossingHere.Settled ∧
    readStatus 0 0 0 0 3 0 1 0 = some ⟨.auto, .inAisle 0, 0, 0, true, true, 0, 1, 0⟩ ∧
    (∀ s ∈ [crossing .toHead, crossingReady, crossingHere],
      (s.aisle 0).geometry.isSome = true ∧ (s.line 0).ctx.aisle = .inAisle 0 ∧ s.holdsLock 0 0 = true ∧
      (s.line 0).reconcileDue = false ∧ (s.line 0).link = .up ∧ (s.line 0).exchange = none ∧ (s.line 0).stale = [] ∧
      (s.line 0).ctx.newlyActive ⟨.auto, .inAisle 0, 0, 0, true, true, 0, 1, 0⟩ = 0 ∧ s.beingCarried 0 = false) ∧
    ((crossing .toHead).car.mayServe = false ∧ crossingReady.car.mayServe = true ∧ crossingReady.car.queue = [] ∧
      crossingReady.car.exchange = none) :=
  ⟨settled _ (by decide +kernel), settled _ (by decide +kernel), settled _ (by decide +kernel), by decide +kernel,
    by decide +kernel, by decide +kernel⟩

/-- Crane 0 rides to aisle 1, whose lock it holds, and a STRANDED job of trip 9 lies in aisle 0, whose lock it holds too. -/
def threeAisles : State :=
  (({ (returned 0).setAisle 1 { site.aisle 0 with lock := some 0 } with
    car := { Car.powerOn with configured := true, work := .fetching, current := some ⟨1, 0, 0, 1, 1⟩ } }).setAisle 2
      { site.aisle 0 with lock := none }).takeConditions

/-- R100, step 2: a STATUS in aisle 2 with trip 9 in hand takes the lock of 2, and keeps that of the current request and
that of the STRANDED job: three locks (assumption 39). -/
theorem test_three_locks : leaves (exec (.status 0 0 2 0 0 1 0 9 0) threeAisles) (fun t =>
    threeAisles.lockLaw && t.locksOf 0 == [0, 1, 2]) = true := by decide +kernel

/-- Group 15 at next rank 65500 with window 32 and the last done-ahead rank it can have; its members at the next rank, READY
beyond the window, DONE below it, and STRANDED at the last rank of the window but one. -/
def lawful : State :=
  ({ site with
    jobs := [(0, { retrieve .ready with group := some ⟨15, 65500⟩ }), (1, { retrieve .ready with group := some ⟨15, 65535⟩ }),
      (2, { retrieve .done with group := some ⟨15, 65499⟩ }),
      (3, { retrieve .stranded with group := some ⟨15, 65530⟩, assignment := some ⟨5, 255, 2⟩ })]
    freeCount := 508
    done := [2] }).setGroup 15 ⟨3, some ⟨65500, 32, [65501, 65531], 0, 0, false⟩⟩

/-- A step with one record; the other bound, no FREE record left; a trip at work on its record, and a DONE record; a group
at the bounds of its law; and a crane in the car queue, and on its way. -/
theorem witness_EveryStepKeepsTheFirstLaw :
    step { withJob site (retrieve .ready) full with pending := [.hostFrameGapTimeout] } =
      .next (withJob site (retrieve .ready) full) ∧
    (({ withJob site (retrieve .ready) full with pending := [.hostFrameGapTimeout] } : State).tableLaw = true ∧
      ({ withJob site (retrieve .ready) full with pending := [.hostFrameGapTimeout] } : State).slotsCanonical = true) ∧
    ({ State.reset with
      jobs := (List.range 512).map (fun i => (i, if i < 480 then retrieve .ready else
        { retrieve .ready with kind := .relocate })),
      freeCount := 0 } : State).tableLaw = true ∧
    ((onTrip activeRetrieve full true plainLeg none).tableLaw = true ∧
      (onTrip activeRetrieve full true plainLeg none).legLaw = true ∧
      (onTrip activeRetrieve full true plainLeg none).doneLaw = true) ∧
    (∀ s ∈ [lawful, crossing .queued, crossingQueued, crossingServed .carrying],
      s.tableLaw = true ∧ s.legLaw = true ∧ s.doneLaw = true ∧ s.groupLaw = true ∧ s.carLaw = true ∧ s.lockLaw = true) ∧
    site.lockLaw = true ∧ site.OneDestination ∧
    ((withJob site (retrieve .done) full).tableLaw = true ∧ (withJob site (retrieve .done) full).legLaw = true ∧
      (withJob site (retrieve .done) full).doneLaw = true) :=
  ⟨rfl, by decide +kernel, by decide +kernel, by decide +kernel, by decide +kernel, by decide +kernel,
    by unfold State.OneDestination; decide +kernel, by decide +kernel⟩

/-- The one-leg trip of crane 0 in `onTrip`. -/
def oneLeg : Trip := ⟨1, [plainLeg], none, true, true⟩

/-- Crane 0 on trip 1 for a STORE to `place`, and for a RETRIEVE from it. -/
def storing (j : Job) : State := onTrip j kept true plainLeg none

def retrieving (j : Job) : State := onTrip j full true plainLeg none

/-- A CHOSEN STORE of a load class, with its withdrawal asked for or not. -/
def chosenStore (loadClass : Nat) (w : Bool) : Job :=
  { activeStore with choice := some .chosen, loadClass := loadClass, withdrawRequested := w }

/-- The RETRIEVE at rank 65534 of group 15. -/
def rankedRetrieve : Job := { activeRetrieve with group := some ⟨15, 65534⟩ }

def rankedSite : State := (retrieving rankedRetrieve).setGroup 15 ⟨1, some ⟨65534, 32, [], 9, 9, true⟩⟩

/-- A relocation from `place` to the RIGHT of the same level and bay, with no dependent. -/
def activeMove : Job := { activeRetrieve with kind := .relocate, target := some { place with side := .right } }

def movingSite : State :=
  ((retrieving activeMove).putSlot 0 { place with side := .right } kept).takeConditions

/-- `strandedSite` when crane 0 is to report on the job late. -/
def lateSite : State := (strandedSite.setLine 0 craneUp).takeConditions

theorem storing_stores (j : Job) (h : j.kind = .store ∧ j.slot = some place ∧ j.target = none ∧
    ((storing j).slot j.aisle place).reservation = some ⟨.into, 0⟩ ∧ j.group = none ∧ j.link = none) :
    (storing j).Stores 0 j place := ⟨h.1, h.2.1, h.2.2.1, h.2.2.2.1, h.2.2.2.2.1, h.2.2.2.2.2⟩

theorem site_retrieves (s : State) (j : Job) (h : j.kind = .retrieve ∧ j.slot = some place ∧ j.target = none ∧
    (s.slot j.aisle place).reservation = some ⟨.outOf, 0⟩ ∧ j.choice = none ∧ j.link = none) :
    s.Retrieves 0 j place := ⟨h.1, h.2.1, h.2.2.1, h.2.2.2.1, h.2.2.2.2.1, h.2.2.2.2.2⟩

theorem movingSite_moves : movingSite.Moves 0 activeMove place { place with side := .right } :=
  ⟨rfl, rfl, rfl, by decide +kernel, by decide +kernel, by decide +kernel, rfl, rfl⟩

/-- Each effect of a STORE, each of a RETRIEVE, each of a relocation, and a job that is STRANDED. -/
theorem witness_LegEffect :
    ((∃ u, LegEffect (storing activeStore) 0 activeStore 1 0 u) ∧ (∃ u, LegEffect (storing activeStore) 0 activeStore 3 0 u) ∧
      (∃ u, LegEffect (storing (chosenStore 3 false)) 0 (chosenStore 3 false) 3 0 u) ∧
      (∃ u, LegEffect (storing (chosenStore 15 false)) 0 (chosenStore 15 false) 3 0 u) ∧
      (∃ u, LegEffect (storing (chosenStore 3 true)) 0 (chosenStore 3 true) 3 0 u) ∧
      (∃ u, LegEffect (storing (chosenStore 3 true)) 0 (chosenStore 3 true) 6 0 u) ∧
      (∃ u, LegEffect (storing (chosenStore 3 true)) 0 (chosenStore 3 true) 8 1 u)) ∧
    ((∃ u, LegEffect (retrieving activeRetrieve) 0 activeRetrieve 1 0 u) ∧
      (∃ u, LegEffect rankedSite 0 rankedRetrieve 1 0 u) ∧
      (∃ u, LegEffect (retrieving activeRetrieve) 0 activeRetrieve 4 0 u) ∧
      (∃ u, LegEffect (retrieving activeRetrieve) 0 activeRetrieve 7 0 u) ∧
      (∃ u, LegEffect (retrieving { activeRetrieve with withdrawRequested := true }) 0
        { activeRetrieve with withdrawRequested := true } 7 0 u)) ∧
    ((∃ u, LegEffect movingSite 0 activeMove 1 0 u) ∧ (∃ u, LegEffect movingSite 0 activeMove 4 0 u) ∧
      (∃ u, LegEffect movingSite 0 activeMove 5 0 u) ∧ (∃ u, LegEffect movingSite 0 activeMove 8 1 u)) ∧
    (∃ u, LegEffect (retrieving activeRetrieve) 0 activeRetrieve 255 255 u) ∧
    (∃ u, LegEffect lateSite 0 strandedStore 8 2 u) :=
  have a := storing_stores activeStore (by decide +kernel)
  have b := storing_stores (chosenStore 3 false) (by decide +kernel)
  have d := storing_stores (chosenStore 15 false) (by decide +kernel)
  have e := storing_stores (chosenStore 3 true) (by decide +kernel)
  have f := site_retrieves (retrieving activeRetrieve) activeRetrieve (by decide +kernel)
  have g := site_retrieves rankedSite rankedRetrieve (by decide +kernel)
  have h := site_retrieves (retrieving { activeRetrieve with withdrawRequested := true })
    { activeRetrieve with withdrawRequested := true } (by decide +kernel)
  have k := movingSite_moves
  ⟨⟨⟨_, .stored a⟩, ⟨_, .storeRefused a rfl⟩,
    ⟨_, .storeChosenAgain (q := ⟨.left, 0, 0, .front⟩) b rfl rfl rfl rfl (by decide +kernel)⟩,
    ⟨_, .storeWithoutRoom d rfl rfl rfl (by decide) rfl (by decide +kernel)⟩, ⟨_, .storeChosenWithdrawn e rfl rfl⟩,
    ⟨_, .loadRefused e⟩, ⟨_, .storeWithdrawn (.inr ⟨rfl, rfl⟩) rfl e⟩⟩,
   ⟨⟨_, .retrieved f rfl⟩, ⟨_, .rankRetrieved (o := ⟨65534, 32, [], 9, 9, true⟩) g rfl (by decide +kernel) rfl (by decide) rfl⟩, ⟨_, .retrieveEmpty f rfl⟩,
    ⟨_, .returned (.inl rfl) rfl (by decide)⟩, ⟨_, .retrieveWithdrawn (.inl rfl) rfl h rfl⟩⟩,
   ⟨⟨_, .moved k rfl⟩, ⟨_, .moveEmpty k rfl⟩, ⟨_, .moveBlocked k rfl⟩, ⟨_, .moveDropped (.inr ⟨rfl, rfl⟩) rfl k rfl⟩⟩,
   ⟨_, .strands (by decide)⟩, ⟨_, .strands (by decide)⟩⟩

/-- The states of `witness_LegEffect` meet the other premises: crane 0 on its trip, and a late report. -/
theorem witness_LegDoneCompletesTheStore :
    (∀ s ∈ [storing activeStore, storing (chosenStore 3 false), storing (chosenStore 15 false),
        storing (chosenStore 3 true), retrieving activeRetrieve, rankedSite,
        retrieving { activeRetrieve with withdrawRequested := true }, movingSite],
      (s.scratch = .empty ∧ s.host.conditions = s.heldConditions ∧ s.host.attention = s.host.wantsAttention) ∧
      (∀ e ∈ s.jobs, e.2.state ≠ .pending) ∧ (s.line 0).link = .up ∧ (s.line 0).exchange = none ∧
      (s.line 0).stale = [] ∧ (s.line 0).trip = some oneLeg ∧ (s.job 0).map Job.state = some .active) ∧
    lateSite.Settled ∧ lateSite.NothingPending ∧
    ((lateSite.line 0).link = .up ∧ (lateSite.line 0).exchange = none ∧ (lateSite.line 0).stale = [] ∧
      (lateSite.line 0).trip = none ∧ lateSite.job 0 = some strandedStore ∧
      lateSite.strandedLeg 0 1 1 = some (0, strandedStore)) :=
  ⟨by decide +kernel, settled _ (by decide +kernel), by unfold State.NothingPending; decide +kernel, by decide +kernel⟩

/-- Crane 0 with a CANCEL of its one leg open. -/
def cancelling : State :=
  onTrip activeRetrieve full true ⟨1, 0, false, true, true⟩ (some ⟨.cancel 1 1, .cancel 1 1, 0, 250⟩)

/-- Crane 0 without a trip, with a CANCEL ALL of number 9 open. -/
def cancellingAll : State := site.setLine 0 { craneUp with exchange := some ⟨.cancelAll 9, .cancel 9 0, 0, 250⟩ }

theorem witness_CancelAnswerEndsTheCancel : cancellingAll.Settled ∧ cancelling.Settled ∧
    ((cancellingAll.line 0).link = .up ∧
      (cancellingAll.line 0).exchange = some ⟨.cancelAll (9 : Byte).toNat, .cancel 9 0, 0, 250⟩ ∧
      (cancellingAll.line 0).stale = [] ∧ (cancellingAll.line 0).trip = none) ∧
    (cancelling.NothingPending ∧ (cancelling.line 0).link = .up ∧
      (cancelling.line 0).exchange = some ⟨.cancel (1 : Byte).toNat 1, .cancel 1 1, 0, 250⟩ ∧
      (cancelling.line 0).stale = [] ∧
      (cancelling.line 0).trip = some ⟨1, [⟨1, 0, false, true, true⟩], none, true, true⟩ ∧
      cancelling.job 0 = some activeRetrieve ∧ activeRetrieve.kind = .retrieve ∧ activeRetrieve.group = none ∧
      activeRetrieve.link = none ∧ activeRetrieve.choice = none ∧ activeRetrieve.slot = some place ∧
      activeRetrieve.target = none ∧ (cancelling.slot 0 place).reservation = some ⟨.outOf, 0⟩) :=
  ⟨settled _ (by decide +kernel), settled _ (by decide +kernel), by decide +kernel,
    by unfold State.NothingPending; decide +kernel, by decide +kernel⟩

/-- `site` with counter B0 of crane 0 as given. -/
def counting (k : Counter) : State :=
  site.setLine 0 { craneUp with counters := { Counters.powerOn with b0 := k } }

/-- A POLL whose last check byte is wrong, with B0 counting input 8 one below its maximum; the longest telegram; and a
combined A counter whose gate is open. -/
theorem witness_BadTelegramIsDiscarded : (counting ⟨8, .wrap, false, 16777214, false⟩).Settled ∧
    ([(0x23 : Byte)].length = (1 : Byte).toNat ∧ [(0 : Byte), 0] ≠ put2 (crc16 [1, 0x23]).toNat ∧
      (List.replicate 64 (0 : Byte)).length = (64 : Byte).toNat ∧
      [(0 : Byte), 0] ≠ put2 (crc16 (64 :: List.replicate 64 0)).toNat ∧
      ((counting ⟨8, .wrap, false, 16777214, false⟩).line 0).gathered = [] ∧
      ((counting ⟨8, .wrap, false, 16777214, false⟩).line 0).counters.b0.select = 8 ∧
      ((counting ⟨8, .wrap, false, 16777214, false⟩).line 0).counters.b0.drains = false ∧ site.car.gathered = []) ∧
    (site.setLine 0 { craneUp with counters := { Counters.powerOn with
      a0 := ⟨8, .wrap, false, 0, false⟩, b0 := ⟨12, .wrap, false, 0, false⟩, a1 := ⟨8, .wrap, false, 0, false⟩,
      b1 := ⟨13, .wrap, false, 0, false⟩, combine1 := true } }).Settled ∧
    (isStateInput 13 = true ∧ site.inputHolds 0 13 = false) :=
  ⟨settled _ (by decide +kernel), by decide +kernel, settled _ (by decide +kernel), by decide +kernel⟩

/-- Resends one below the limit and at it, for a crane without a trip and for one with its ORDER open; and no exchange. -/
theorem witness_AnswerTimerResendsOrLosesTheLink : cancellingAll.Settled ∧ ordering.Settled ∧
    (cancellingAll.line 0).exchange = some ⟨.cancelAll 9, .cancel 9 0, 0, 250⟩ ∧ 0 < cancellingAll.settings.resendLimit ∧
    ({ cancellingAll with settings := ⟨250, 0, 1000⟩ } : State).settings.resendLimit ≤ 0 ∧
    (cancellingAll.line 0).trip = none ∧ (ordering.line 0).exchange = some orderOpen ∧
    (ordering.line 0).trip = some ⟨1, [plainLeg], none, false, true⟩ ∧ ordering.job 0 = some orderedRetrieve ∧
    (site.line 0).exchange = none :=
  ⟨settled _ (by decide +kernel), settled _ (by decide +kernel), by decide +kernel⟩

/-- A crane without a trip, and one with an accepted trip and a leg whose CANCEL has been sent. -/
theorem witness_SilenceSendsPoll : site.Settled ∧ (introducing 0).Settled ∧
    (onTrip activeRetrieve full true ⟨1, 0, false, true, true⟩ none).Settled ∧
    ((site.line 0).link = .up ∧ (site.line 0).exchange = none ∧ (site.line 0).stale = [] ∧
      (site.line 0).trip = none) ∧
    ((onTrip activeRetrieve full true ⟨1, 0, false, true, true⟩ none).line 0).trip =
      some ⟨1, [⟨1, 0, false, true, true⟩], none, true, true⟩ ∧
    (site.line 7).link = .absent ∧ ((introducing 0).line 0).link = .introducing :=
  ⟨settled _ (by decide +kernel), settled _ (by decide +kernel), settled _ (by decide +kernel), by decide +kernel⟩

theorem witness_CraneMarksAreWritten : site.Settled ∧ site.hasTurn ⟨0x70, 1, [0, 1, 1, 0xFF, 0]⟩ ∧
    site.hasTurn ⟨0x71, 1, [7]⟩ ∧ byteAt [0, 1, 1, 0xFF, 0] 0 = (0 : Fin 8).val ∧
    byteAt [0, 1, 1, 0xFF, 0] 1 = true.toNat ∧ byteAt [0, 1, 1, 0xFF, 0] 2 = true.toNat ∧
    byteAt [0, 1, 0, 0xFF, 0] 2 = false.toNat ∧ byteAt [7] 0 = (7 : Fin 8).val ∧
    (∀ id, id ∈ [CounterId.a0, .b0, .a1, .b1] → isStateInput ((site.line 0).counters.get id).select = false) ∧
    (((site.setLine 0 { craneUp with ctx := { craneUp.ctx with drained := true } }).takeConditions).line 0).ctx.drained =
      true := ⟨settled _ (by decide +kernel), .inl rfl, .inl rfl, by decide +kernel⟩

/-- Four counters at the ends of their ranges; READ COUNTERS without and with clearing. -/
theorem witness_CountersAreSetAndRead : site.hasTurn ⟨0x74, 1, [0, 1]⟩ ∧
    readCounter ([7, 15, 1, 1, 0xFF, 0xFF, 0xFF] ++ List.replicate 20 0) 1 = some ⟨15, .saturate, true, 16777215, false⟩ ∧
    readCounter ([7, 15, 1, 1, 0xFF, 0xFF, 0xFF] ++ List.replicate 20 0) 7 = some ⟨0, .wrap, false, 0, false⟩ ∧
    byteAt ([7, 15, 1, 1, 0xFF, 0xFF, 0xFF] ++ List.replicate 20 0) 0 = (7 : Fin 8).val ∧
    ([7, 15, 1, 1, 0xFF, 0xFF, 0xFF] ++ List.replicate 20 (0 : Byte)).length = 27 ∧ byteAt [0, 1] 1 = 1 ∧
    byteAt [0, 0] 1 = 0 := ⟨.inl rfl, by decide +kernel⟩

/-- A counter of bad frames at its maximum in either mode, with drain enable; one just below; one that selects nothing; a
state input; and a combined A counter beside BUSY, which does not hold. -/
theorem witness_CounterOverflows : (counting ⟨8, .wrap, true, 16777215, false⟩).Settled ∧
    (counting ⟨8, .saturate, true, 16777215, false⟩).Settled ∧
    (((counting ⟨8, .wrap, true, 16777215, false⟩).line 0).counters.get .b0) = ⟨8, .wrap, true, 16777215, false⟩ ∧
    isStateInput 8 = false ∧ isStateInput 11 = true ∧ site.inputHolds 0 11 = false ∧
    (((counting ⟨8, .wrap, true, 16777214, false⟩).line 0).counters.get .b0).value < 16777215 ∧
    (((counting ⟨0, .wrap, true, 16777215, false⟩).line 0).counters.get .b0).select = 0 :=
  ⟨settled _ (by decide +kernel), settled _ (by decide +kernel), by decide +kernel⟩

theorem witness_ReadAlertsReportsAndChangesNothing : site.hasTurn ⟨0x80, 1, []⟩ := .inl rfl

/-- A selection of every alert; the mask of all ten, and the least that names no alert. -/
theorem witness_AlertsAreClearedAndMasked : site.hasTurn ⟨0x81, 1, [0x03, 0xFF]⟩ ∧ site.hasTurn ⟨0x82, 1, [0x03, 0xFF]⟩ ∧
    wordAt [0x03, 0xFF] 0 < 1024 ∧ 1024 ≤ wordAt [0x04, 0x00] 0 := ⟨.inl rfl, .inl rfl, by decide +kernel⟩

/-- LOADING with no aisle, with one, and with two and the car configured or not; RUNNING; HALTED. -/
theorem witness_RunRequestsChangeThePhase : (State.reset.phase = .loading ∧ State.reset.configuredAisles = 0) ∧
    ({ site with phase := .loading } : State).hasTurn ⟨0x90, 1, []⟩ ∧ site.configuredAisles = 1 ∧
    (2 ≤ ((carAt .idle none).setAisle 1 (site.aisle 0)).configuredAisles ∧
      ((carAt .idle none).setAisle 1 (site.aisle 0)).car.configured = true) ∧
    (2 ≤ (site.setAisle 1 (site.aisle 0)).configuredAisles ∧
      (site.setAisle 1 (site.aisle 0)).car.configured = false) ∧
    site.phase = .running ∧ ({ site with phase := .halted } : State).hasTurn ⟨0x92, 1, []⟩ :=
  ⟨by decide +kernel, .inl rfl, by decide +kernel, by decide +kernel, by decide +kernel, rfl, .inl rfl⟩

/-- RESUME makes crane 0 eligible beside an A counter of IDLE-eligible at its maximum with drain enable: the counter, the
drained mark and the alerts stand (R147, R179). -/
theorem test_resume_counts_nothing :
    (let s : State := { site.setLine 0 { craneUp with counters := { Counters.powerOn with
        a0 := ⟨12, .wrap, true, 16777215, false⟩ } } with phase := .halted }
     match exec (.resume 1 []) s with
     | .next t => !s.eligible 0 && t.eligible 0 && t.lines == s.lines && t.host.alerts == s.host.alerts
     | _ => false) = true := by decide +kernel

/-- The tenths before and at the completion of a second, the seconds at their greatest, and LOADING; a group one second
below its limit, and two below. -/
theorem witness_ClockTicks : State.reset.phase = .loading ∧
    ({ site with clock := ⟨4294967295, 8⟩ } : State).Settled ∧ ({ readySite with clock := ⟨4294967295, 9⟩ } : State).Settled ∧
    ({ grouped 1 [] 1 60 59 with clock := ⟨0, 9⟩ } : State).Settled ∧ site.phase ≠ .loading ∧ site.car.jobTimer = none ∧
    (∀ g, (readySite.group g).stallsNext = false) ∧ ((grouped 1 [] 1 60 59).group 15).stallsNext = true ∧
    (∀ g, ((grouped 1 [] 1 60 58).group g).stallsNext = false) ∧
    (∀ g, ((grouped 1 [] 0 60 59).group g).stallsNext = false) :=
  ⟨rfl, settled _ (by decide +kernel), settled _ (by decide +kernel), settled _ (by decide +kernel), by decide +kernel⟩

end Sys2Proof.Tests
end

section
/-! Rules for the host requests on jobs: what a slot change does while no job waits on one (R43), what each move of a job
record comes to, and what a request completes with that its owner accepts without collecting a job. -/

namespace Sys2Proof.Machine

/-! ## Jobs that a change collects (R43) -/

/-- The job waits for what a change of R43 brings: a location, room, or a record. -/
def Job.waits (j : Job) : Bool :=
  j.state == .pending && (j.reason == some .slotBlocked || j.reason == some .frontBlocked ||
    j.reason == some .rearPending || j.reason == some .noRoom || j.reason == some .noRecord)

/-- No job waits for what a change of R43 brings. -/
def State.NoneWaits (s : State) : Prop := ∀ e ∈ s.jobs, e.2.waits = false

theorem Job.waits_of_state {j : Job} (h : j.state ≠ .pending) : j.waits = false := by simp [Job.waits, h]

theorem State.NothingPending.noneWaits {s : State} (h : s.NothingPending) : s.NoneWaits :=
  fun e he => Job.waits_of_state (h e he)

/-- When one job alone is PENDING, for another reason than those of R43, no job waits. -/
theorem State.noneWaits_of_one {s : State} {i : Nat} {j : Job} (hr : rising s.jobs = true) (hj : s.job i = some j)
    (hw : j.waits = false) (h : ∀ e ∈ s.jobs, e.2.state = .pending → e.1 = i) : s.NoneWaits := by
  rintro ⟨m, v⟩ he
  by_cases hp : v.state = .pending
  · obtain rfl : m = i := h _ he hp
    have hv : s.job m = some v := lookup_of_mem m v s.jobs hr he
    obtain rfl : v = j := Option.some.inj (hv.symm.trans hj)
    exact hw
  · exact Job.waits_of_state hp

theorem State.NoneWaits.setJob {s : State} (h : s.NoneWaits) (i : Nat) {j : Job} (hw : j.waits = false) :
    (s.setJob i j).NoneWaits := by
  intro e he
  rcases mem_insertKey i j s.jobs e he with rfl | he
  · exact hw
  · exact h e he

theorem State.jobsWhere_of_noneWaits {s : State} (h : s.NoneWaits) (p : Job → Bool)
    (hp : ∀ j, p j = true → j.waits = true) : s.jobsWhere p = [] := by
  have : s.jobs.filter (fun e => p e.2) = [] :=
    List.filter_eq_nil_iff.2 fun e he hpe => by simpa [h e he] using hp e.2 hpe
  rw [State.jobsWhere, this, List.map_nil]

theorem State.waitingAtLocation_of_noneWaits {s : State} (h : s.NoneWaits) (a : Fin 16) (p : SlotPos) :
    s.waitingAtLocation a p = [] :=
  State.jobsWhere_of_noneWaits h _ fun j hj => by
    simp only [Bool.and_eq_true] at hj
    obtain ⟨⟨⟨hs, -⟩, hr⟩, -⟩ := hj
    simp only [Job.waits, hs, hr, Bool.true_or, Bool.and_self]

theorem State.waitingForRoom_of_noneWaits {s : State} (h : s.NoneWaits) (a : Fin 16) : s.waitingForRoom a = [] :=
  State.jobsWhere_of_noneWaits h _ fun j hj => by
    simp only [Bool.and_eq_true] at hj
    obtain ⟨⟨hs, -⟩, hr⟩ := hj
    simp only [Job.waits, hs, hr, Bool.or_true, Bool.true_or, Bool.and_self]

theorem State.waitingForRecord_of_noneWaits {s : State} (h : s.NoneWaits) : s.waitingForRecord = [] :=
  State.jobsWhere_of_noneWaits h _ fun j hj => by
    simp only [Bool.and_eq_true] at hj
    obtain ⟨hs, hr⟩ := hj
    simp only [Job.waits, hs, hr, Bool.or_true, Bool.and_self]

@[simp] theorem State.collect_nil (s : State) : s.collect [] = s := by simp [State.collect]

/-! ## Slot changes while no job waits -/

theorem State.setJob_putSlot_comm (s : State) (i : Nat) (j : Job) (a : Fin 16) (p : SlotPos) (r : Slot) :
    (s.setJob i j).putSlot a p r = (s.putSlot a p r).setJob i j := rfl

theorem State.changeSlot_of_noneWaits {s : State} (h : s.NoneWaits) (a : Fin 16) (p : SlotPos) (x : Bool) (r : Slot) :
    s.changeSlot a p x r = s.putSlot a p r := by
  have h' : (s.putSlot a p r).NoneWaits := h
  unfold State.changeSlot
  simp only [State.waitingAtLocation_of_noneWaits h', State.collect_nil, ite_self,
    State.waitingForRoom_of_noneWaits h']

theorem State.reserve_of_noneWaits {s : State} (h : s.NoneWaits) (a : Fin 16) (p : SlotPos) (k : ResKind) (i : Nat) :
    s.reserve a p k i = s.putSlot a p { s.slot a p with reservation := some ⟨k, i⟩ } :=
  State.changeSlot_of_noneWaits h a p false _

@[simp] theorem State.settleSlot_none (s : State) (a : Fin 16) (i : Nat) (f : Slot → Slot) :
    s.settleSlot a none i f = s := rfl

/-- A slot held by the job: the reservation is removed and the change made (R45). -/
theorem State.settleSlot_of_noneWaits {s : State} (h : s.NoneWaits) {a : Fin 16} {p : SlotPos} {k : ResKind} {i : Nat}
    (hv : (s.slot a p).reservation = some ⟨k, i⟩) (f : Slot → Slot) :
    s.settleSlot a (some p) i f = s.putSlot a p (f { s.slot a p with reservation := none }) := by
  have hw : (s.slot a p).without i = { s.slot a p with reservation := none } := by simp [Slot.without, hv]
  simp only [State.settleSlot, State.changeSlot_of_noneWaits h, hw]

/-- Slots with different reservations have different keys. -/
theorem State.slotKey_ne_of_reservation {s : State} {a b : Fin 16} {p q : SlotPos}
    (h : (s.slot a p).reservation ≠ (s.slot b q).reservation) : slotKey a p ≠ slotKey b q := by
  intro hk
  have ha : a = b := Fin.ext (by rw [← slotKey_aisle a p, ← slotKey_aisle b q, hk])
  subst ha
  exact h (by simp only [State.slot, hk])

/-! ## Moves of a record -/

theorem State.updateJob_of_job {s : State} {i : Nat} {j : Job} (h : s.job i = some j) (f : Job → Job) :
    s.updateJob i f = s.setJob i (f j) := by simp only [State.updateJob, h]

/-- A job whose withdrawal is not asked for, and that is no relocation without a dependent, makes the move (R8, R12). -/
theorem State.returnJob_of_kept {s : State} {i : Nat} {j : Job} (h : s.job i = some j) (hw : j.withdrawRequested = false)
    (hk : j.kind ≠ .relocate) (move : Job → State) : s.returnJob i move = move j := by
  simp [State.returnJob, h, hw, hk]

theorem State.enterReady_of_kept {s : State} {i : Nat} {j : Job} (h : s.job i = some j)
    (hw : j.withdrawRequested = false) (hk : j.kind ≠ .relocate) :
    s.enterReady i = (s.setJob i { j with state := .ready, reason := none, assignment := none }).tellDispatcher :=
  State.returnJob_of_kept h hw hk _

/-- Entry into READY of a record just written. -/
theorem State.enterReady_setJob (s : State) (i : Nat) {k : Job} (hw : k.withdrawRequested = false)
    (hk : k.kind ≠ .relocate) :
    (s.setJob i k).enterReady i =
      (s.setJob i { k with state := .ready, reason := none, assignment := none }).tellDispatcher := by
  rw [State.enterReady_of_kept (State.job_setJob_self s i k) hw hk, State.setJob_setJob]

theorem State.enterPending_of_kept {s : State} {i : Nat} {j : Job} (h : s.job i = some j)
    (hw : j.withdrawRequested = false) (hk : j.kind ≠ .relocate) {r : PendingReason} (hr : r ≠ .noRoom) :
    s.enterPending i r = s.setJob i { j with state := .pending, reason := some r, assignment := none } := by
  simp [State.enterPending, State.returnJob_of_kept h hw hk, hr]

/-- Entry into PENDING of a record just written. -/
theorem State.enterPending_setJob (s : State) (i : Nat) {k : Job} (hw : k.withdrawRequested = false)
    (hk : k.kind ≠ .relocate) {r : PendingReason} (hr : r ≠ .noRoom) :
    (s.setJob i k).enterPending i r =
      s.setJob i { k with state := .pending, reason := some r, assignment := none } := by
  rw [State.enterPending_of_kept (State.job_setJob_self s i k) hw hk hr, State.setJob_setJob]

/-- A job that comes to wait for room raises NO_ROOM (R37). -/
theorem State.enterPending_noRoom_of_kept {s : State} {i : Nat} {j : Job} (h : s.job i = some j)
    (hw : j.withdrawRequested = false) (hk : j.kind ≠ .relocate) (hr : j.reason ≠ some .noRoom) :
    s.enterPending i .noRoom =
      (s.setJob i { j with state := .pending, reason := some .noRoom, assignment := none }).raise .noRoom := by
  simp [State.enterPending, State.returnJob_of_kept h hw hk, hr]

/-- The release of a job that holds one slot and is no CHOSEN store (R49). -/
theorem State.releaseReservations_one {s : State} (hn : s.NoneWaits) {i : Nat} {j : Job} {p : SlotPos} {k : ResKind}
    (h : s.job i = some j) (hp : j.slot = some p) (ht : j.target = none) (hc : j.choice = none)
    (hv : (s.slot j.aisle p).reservation = some ⟨k, i⟩) :
    s.releaseReservations i = s.putSlot j.aisle p { s.slot j.aisle p with reservation := none } := by
  simp [State.releaseReservations, h, hp, ht, hc, State.settleSlot_of_noneWaits hn hv]

/-- The release of a relocation (R49). -/
theorem State.releaseReservations_two {s : State} (hn : s.NoneWaits) {i : Nat} {j : Job} {p q : SlotPos}
    (h : s.job i = some j) (hp : j.slot = some p) (hq : j.target = some q) (hc : j.choice = none)
    (hvp : (s.slot j.aisle p).reservation = some ⟨.outOf, i⟩) (hvq : (s.slot j.aisle q).reservation = some ⟨.into, i⟩) :
    s.releaseReservations i = (s.putSlot j.aisle p { s.slot j.aisle p with reservation := none }).putSlot j.aisle q
      { s.slot j.aisle q with reservation := none } := by
  have hk : slotKey j.aisle q ≠ slotKey j.aisle p :=
    State.slotKey_ne_of_reservation (s := s) (by rw [hvq, hvp]; simp)
  have hs (r : Slot) : (s.putSlot j.aisle p r).slot j.aisle q = s.slot j.aisle q :=
    State.slot_putSlot_ne s j.aisle j.aisle p q r hk
  have hsettle (r : Slot) : (s.putSlot j.aisle p r).settleSlot j.aisle (some q) i id =
      (s.putSlot j.aisle p r).putSlot j.aisle q { s.slot j.aisle q with reservation := none } := by
    have hn' : (s.putSlot j.aisle p r).NoneWaits := hn
    rw [State.settleSlot_of_noneWaits hn' (by rw [hs]; exact hvq), hs, id_eq]
  simp only [State.releaseReservations, h, hp, hq, hc, State.settleSlot_of_noneWaits hn hvp, id_eq, hsettle,
    reduceCtorEq, if_false]

/-- A job without group and link enters DONE (R9). -/
theorem State.enterDone_plain {s : State} {i : Nat} {j : Job} (h : s.job i = some j) (hg : j.group = none)
    (hl : j.link = none) (o : JobOutcome) : s.enterDone i o = s.endsIn i j o := by
  cases j
  cases hg
  cases hl
  simp only [State.enterDone, h]
  rfl

/-- A dependent without group enters DONE, and its link is dissolved at both ends (R9, R12). -/
theorem State.enterDone_linked {s : State} {i l : Nat} {j k : Job} (h : s.job i = some j) (hg : j.group = none)
    (hl : j.link = some l) (hj : j.kind ≠ .relocate) (hk : s.job l = some k) (hne : l ≠ i) (o : JobOutcome) :
    s.enterDone i o = (s.endsIn i j o).setJob l { k with link := none } := by
  have hk' : (s.endsIn i j o).job l = some k := (State.job_setJob_ne s i l (j.ended o) hne).trans hk
  rw [← State.updateJob_of_job hk' (fun k => { k with link := none })]
  cases j
  cases hg
  cases hl
  simp only [State.enterDone, h, if_neg hj]
  rfl

/-- A record becomes FREE while no job waits (R11). -/
theorem State.freeRecord_of_noneWaits {s : State} (h : s.NoneWaits) (i : Nat) :
    s.freeRecord i = { s with jobs := removeKey i s.jobs, freeCount := s.freeCount + 1 } := by
  have h' : ({ s with jobs := removeKey i s.jobs, freeCount := s.freeCount + 1 } : State).NoneWaits :=
    fun e he => h e (mem_removeKey i s.jobs e he).1
  simp only [State.freeRecord, State.waitingForRecord_of_noneWaits h', State.collect_nil]

theorem removeKey_insertKey {α : Type} (k : Nat) (v : α) (l : List (Nat × α)) :
    removeKey k (insertKey k v l) = removeKey k l := by
  induction l with
  | nil => simp [insertKey, removeKey]
  | cons e rest ih =>
    obtain ⟨k', v'⟩ := e
    simp only [insertKey]
    split
    · simp [removeKey]
    · split
      · simp [removeKey, *]
      · simp [removeKey, *]

/-! ## Requests -/

theorem lengthAgrees_everyPhase {c : Byte} {n : Nat} {b : List Byte} (hr : requestRow c = some (everyPhase c n))
    (h : b.length = n) : lengthAgrees c b = true := lengthAgrees_of c b _ hr rfl h

theorem admitted_everyPhase {c : Byte} {n : Nat} (p : Phase) (hr : requestRow c = some (everyPhase c n)) :
    admitted c p = true := admitted_always c p _ hr rfl

theorem State.jobs_of_bare {s t : State} (h : s.bare = t.bare) : s.jobs = t.jobs := by
  show s.bare.jobs = t.bare.jobs
  rw [h]

/-- A request that its owner accepts, leaving a state `t` in which nothing has been gathered, completes with `t` and its
reply, when the reply's body reads the records alone. -/
theorem completes_of_accepted {i : Instr} {s t : State} {r : Request} {f : State → Served} {body : State → List Byte}
    {b : List Byte} (he : exec i s = .next (s.hostRequest r (fun t => t.handle r f))) (ht : s.hasTurn r)
    (hl : lengthAgrees r.code r.body = true) (hp : admitted r.code s.phase = true)
    (hv : f s.popRequest = accept t body) (hs : t.scratch = .empty)
    (hb : ∀ v : State, (∀ n, v.job n = t.job n) → body v = b) : Completes i s (t.answer r .ok b) := by
  have hq : t.Quiet := ⟨congrArg Scratch.own hs, congrArg Scratch.collected hs⟩
  have hjobs := State.jobs_of_bare (State.finish_bare t s.popRequest hq)
  exact completes_of_handle i s _ r f _ b he ht hl hp hv rfl hq (hb _ fun n => congrArg (lookup n) hjobs) rfl
    (State.Grows.refl t)

/-! ## Reply bodies -/

theorem State.putAmendedJob_of_job {s : State} {i : Nat} {j : Job} (h : s.job i = some j) :
    s.putAmendedJob i = j.put := by simp only [State.putAmendedJob, h]

theorem State.putStateReason_of_job {s : State} {i : Nat} {j : Job} (h : s.job i = some j) :
    s.putStateReason i = put1 (stateCode j.state) ++ putOption 1 (fun r => put1 (reasonCode r)) j.reason := by
  simp only [State.putStateReason, h]

theorem State.putStateOutcome_of_job {s : State} {i : Nat} {j : Job} (h : s.job i = some j) :
    s.putStateOutcome i = put1 (stateCode j.state) ++ putOption 1 (fun o => put1 (outcomeCode o)) j.outcome := by
  simp only [State.putStateOutcome, h]

theorem State.putState_of_job {s : State} {i : Nat} {j : Job} (h : s.job i = some j) :
    s.putState i = put1 (stateCode j.state) := by simp only [State.putState, h]

end Sys2Proof.Machine
end

section
/-! The statements on the machine as a whole: the device laws over a step, and the state after power-on. -/

namespace Sys2Proof.Machine

/-! ## The device laws over a step (R97)

The clause on the fourth law asks nothing of the record list, so two records may have one index. Then the aisle of the
STRANDED jobs from which a STATUS rebuilds a trip (R163) is read from the first record of that index, and it need not be
one that the crane is bound for. -/

/-- A READY job in aisle 5. -/
def readyInFive : Job :=
  { tag := 7, kind := .retrieve, state := .ready, reason := none, aisle := 5, slot := none, target := none, choice := none,
    loadClass := 0, attr := 0, priority := 0, age := 0, staged := none, group := none, link := none, assignment := none,
    withdrawRequested := false, excluded := 0, refusals := 0, lastScore := none, outcome := none }

/-- A job in aisle 2 that is STRANDED on trip 7 of crane 0. -/
def strandedInTwo : Job := { readyInFive with aisle := 2, state := .stranded, assignment := some ⟨0, 7, 1⟩ }

/-- An aisle of two slots. -/
def smallAisle (lock : Option (Fin 8)) : Aisle := ⟨some ⟨1, 1, 1, 0⟩, some true, lock, 0, 2⟩

/-- Records `readyInFive` and `strandedInTwo` both of index 0; crane 0, which the car is to carry to aisle 2, holds the
locks of aisles 2 and 5, and its STATUS of trip 7 from aisle 1 is the command at the front. -/
def doubledIndex : State :=
  (((({ State.reset with
    pending := [.status 0 0 1 0 0 0 0 7 0]
    phase := .running
    jobs := [(0, readyInFive), (0, strandedInTwo)]
    car := { Car.powerOn with current := some ⟨1, 0, 1, 2, 7⟩ } } : State).setAisle 1 (smallAisle none)).setAisle 2
    (smallAisle (some 0))).setAisle 5 (smallAisle (some 0))).setLine 0
    { Line.powerOn with link := .up, strandedCheck := true }

/-- The state that the STATUS leaves. -/
def threeLocks : State := ({ doubledIndex with pending := [] } : State).receiveStatus 0 0 1 0 0 0 0 7 0

theorem step_doubledIndex : step doubledIndex = .next threeLocks := rfl

theorem lockLaw_doubledIndex : doubledIndex.lockLaw = true := by decide +kernel

/-- Crane 0 is bound for aisle 2 alone, and no crane is eligible. -/
theorem oneDestination_doubledIndex : doubledIndex.OneDestination := by
  unfold State.OneDestination
  decide +kernel

/-- The crane keeps the locks of aisles 2 and 5 and takes that of aisle 1. -/
theorem locksOf_threeLocks : threeLocks.locksOf 0 = [1, 2, 5] := by decide +kernel

theorem lockLaw_threeLocks : threeLocks.lockLaw = false := by
  rw [Bool.eq_false_iff]
  intro h
  have htwo := of_decide_eq_true (List.all_eq_true.mp h 0 (by decide))
  rw [locksOf_threeLocks] at htwo
  exact absurd htwo (by decide)

/-- Refutes O3: the clause on the fourth law does not ask that the records have different indices, and from
`doubledIndex`, where two have one, a STATUS leaves a crane with three aisle locks. -/
theorem not_everyStepKeepsTheFirstLaw : ¬ Obligations.EveryStepKeepsTheFirstLaw := by
  intro h
  obtain ⟨-, -, -, -, -, fourth⟩ := h doubledIndex threeLocks step_doubledIndex
  have htwo : threeLocks.lockLaw = true :=
    fourth lockLaw_doubledIndex oneDestination_doubledIndex (fun l b rest hp => by cases hp)
  rw [lockLaw_threeLocks] at htwo
  cases htwo

/-! ## Power on (R184) -/

/-- Settles O4: at either level the state after power-on is a literal, and each law evaluates on it. -/
theorem powerOnMeetsTheInvariants : Obligations.PowerOnMeetsTheInvariants := by
  have hall : ∀ level : HoldLevel, (State.powerOn level).Settled ∧ (State.powerOn level).tableLaw = true ∧
      (State.powerOn level).legLaw = true ∧ (State.powerOn level).doneLaw = true ∧
      (State.powerOn level).slotsCanonical = true ∧ (State.powerOn level).groupLaw = true ∧
      (State.powerOn level).carLaw = true ∧ (State.powerOn level).lockLaw = true := by
    intro level
    cases level with
    | released => exact ⟨⟨rfl, by decide +kernel, by decide +kernel⟩, by decide +kernel⟩
    | asserted => exact ⟨⟨rfl, by decide +kernel, by decide +kernel⟩, by decide +kernel⟩
  exact ⟨hall .released, hall⟩

end Sys2Proof.Machine
end

section
/-! The statements on AMEND JOB, STAGE, RETIRE JOB and RESOLVE JOB. -/

namespace Sys2Proof.Machine

/-! ## AMEND JOB (R18, R19) -/

/-- An amendment of either of the first two fields, and not of the staged mark, passes the checks of R18 on a READY job
that is no RELOCATE. -/
theorem readAmendment_check {b : List Byte} {j : Job} (hk : j.kind ≠ .relocate) (hs : j.state = .ready)
    (hset : 1 ≤ byteAt b 4 % 4) (hstaged : byteAt b 4 / 4 % 2 = 0) (hp : byteAt b 4 % 2 = 1 → byteAt b 5 ≤ 7) :
    (readAmendment b).check j = none := by
  have hm : byteAt b 4 % 2 = 1 ∨ byteAt b 4 / 2 % 2 = 1 := by omega
  have hin : (readAmendment b).inRange = true := by
    by_cases h0 : byteAt b 4 % 2 = 1
    · simp [Amendment.inRange, readAmendment, h0, hstaged, hp h0]
    · simp [Amendment.inRange, readAmendment, h0, hm.resolve_left h0, hstaged]
  have hst : (readAmendment b).staged = none := by simp [readAmendment, hstaged]
  simp [Amendment.check, firstFailing, hin, hst, hs, hk]

/-- The record with the fields that a body names written. -/
theorem amended_readAmendment (b : List Byte) (j : Job) : j.amended (readAmendment b) = { j with
    priority := if byteAt b 4 % 2 = 1 then byteAt b 5 else j.priority
    attr := if byteAt b 4 / 2 % 2 = 1 then BitVec.ofNat 16 (wordAt b 6) else j.attr
    excluded := 0 } := by
  simp only [Job.amended, readAmendment]
  congr 1 <;> split <;> rfl

/-- AMEND JOB at its owner, for an amendment of a READY job that passes the checks and does not name staged. -/
theorem State.serveAmend_ready {s : State} {b : List Byte} {i : Nat} {j : Job} (ht : s.byTag (longAt b 0) = some (i, j))
    (hc : (readAmendment b).check j = none) (hst : (readAmendment b).staged = none) (hs : j.state = .ready) :
    s.serveAmend b = accept (s.setJob i (j.amended (readAmendment b))).tellDispatcher (fun u => u.putAmendedJob i) := by
  have htell : s.amendTells j = true := by simp [State.amendTells, hs]
  simp [State.serveAmend, ht, hc, hst, htell]

/-- Settles O14: the checks of R18 pass, and the Dispatcher is told for the READY job. -/
theorem amendWritesTheNamedFields : Obligations.AmendWritesTheNamedFields := by
  rintro n b i j k s hS hlen htag - hk hs hset hstaged hp hturn rfl
  rw [← amended_readAmendment b j]
  have hst : (readAmendment b).staged = none := by simp [readAmendment, hstaged]
  have hrow : requestRow 0x12 = some (everyPhase 0x12 9) := by decide
  refine completes_of_accepted (f := State.serveAmend b) rfl hturn (lengthAgrees_everyPhase hrow hlen)
    (admitted_everyPhase _ hrow)
    (State.serveAmend_ready (s := s.popRequest) htag (readAmendment_check hk hs hset hstaged hp) hst hs) hS.scratch ?_
  exact fun v hv => State.putAmendedJob_of_job ((hv i).trans (State.job_setJob_self s i _))

/-! ## STAGE (R20, R38, R39) -/

/-- A STORE that waits NOT_STAGED is staged and evaluated (R20). -/
theorem State.serveStage_notStaged {s : State} {b : List Byte} {i : Nat} {j : Job}
    (ht : s.byTag (longAt b 0) = some (i, j)) (hj : s.job i = some j) (hk : j.kind = .store) (hp : j.state = .pending)
    (hr : j.reason = some .notStaged) (hst : j.staged = some false) :
    s.serveStage b = accept ((s.setJob i { j with staged := some true }).evaluate i) (fun t => t.putStateReason i) := by
  simp [State.serveStage, ht, State.stageJob, hj, hk, hp, hr, hst]

/-- A staged EXPLICIT STORE to a FRONT slot of a single-deep aisle, not BLOCKED, enters READY (R38). -/
theorem State.evaluate_explicit_front {s : State} {i : Nat} {j : Job} {p : SlotPos} (h : s.job i = some j)
    (hk : j.kind = .store) (hc : j.choice = some .explicit) (hslot : j.slot = some p) (hst : j.staged = some true)
    (hd : p.depth = .front) (hdd : s.doubleDeep j.aisle = false) (hb : (s.slot j.aisle p).condition ≠ .blocked) :
    s.evaluate i = s.enterReady i := by
  simp [State.evaluate, h, hk, hc, hslot, State.evaluateExplicit, hst, hd, hdd, hb]

/-- A staged CHOSEN STORE for which store choice finds a slot is given it and enters READY (R39). -/
theorem State.evaluate_chosen_some {s : State} (hn : s.NoneWaits) {i : Nat} {j : Job} {p : SlotPos}
    (h : s.job i = some j) (hk : j.kind = .store) (hc : j.choice = some .chosen) (hst : j.staged = some true)
    (hw : j.withdrawRequested = false) (hp : s.chooseSlot j.aisle j.loadClass (0, 0) none = some p) :
    s.evaluate i = ((s.putSlot j.aisle p { s.slot j.aisle p with reservation := some ⟨.into, i⟩ }).setJob i { j with
      slot := some p, state := .ready, reason := none, assignment := none }).tellDispatcher := by
  have hres (r : Slot) : (s.putSlot j.aisle p r).job i = some j := h
  have he : s.evaluate i = s.evaluateChosen i j := by simp only [State.evaluate, h, hk, hc]
  rw [he, State.evaluateChosen, if_neg (by simp [hst])]
  simp only [hp, State.reserve_of_noneWaits hn, State.updateJob_of_job (hres _)]
  exact State.enterReady_setJob _ i (k := { j with slot := some p }) hw (by simp [hk])

/-- A staged CHOSEN STORE for which store choice finds no slot waits with NO_ROOM (R39, R37). -/
theorem State.evaluate_chosen_none {s : State} {i : Nat} {j : Job} (h : s.job i = some j) (hk : j.kind = .store)
    (hc : j.choice = some .chosen) (hst : j.staged = some true) (hw : j.withdrawRequested = false)
    (hr : j.reason ≠ some .noRoom) (hp : s.chooseSlot j.aisle j.loadClass (0, 0) none = none) :
    s.evaluate i =
      (s.setJob i { j with state := .pending, reason := some .noRoom, assignment := none }).raise .noRoom := by
  have he : s.evaluate i = s.evaluateChosen i j := by simp only [State.evaluate, h, hk, hc]
  rw [he, State.evaluateChosen, if_neg (by simp [hst])]
  simp only [hp]
  exact State.enterPending_noRoom_of_kept h hw (by simp [hk]) hr

/-- STAGE completes with what the evaluation makes of the staged record. -/
theorem completes_stage {n : Byte} {b body : List Byte} {i : Nat} {j k : Job} {s t : State} (hS : t.scratch = .empty)
    (hlen : b.length = 4) (htag : s.byTag (longAt b 0) = some (i, j)) (hj : s.job i = some j) (hk : j.kind = .store)
    (hp : j.state = .pending) (hr : j.reason = some .notStaged) (hst : j.staged = some false)
    (hturn : s.hasTurn ⟨0x13, n, b⟩) (he : (s.popRequest.setJob i { j with staged := some true }).evaluate i = t)
    (ht : t.job i = some k)
    (hb : put1 (stateCode k.state) ++ putOption 1 (fun r => put1 (reasonCode r)) k.reason = body) :
    Completes (.stage n b) s (t.answer ⟨0x13, n, b⟩ .ok body) := by
  have hrow : requestRow 0x13 = some (everyPhase 0x13 4) := by decide
  refine completes_of_accepted (f := State.serveStage b) rfl hturn (lengthAgrees_everyPhase hrow hlen)
    (admitted_everyPhase _ hrow)
    ((State.serveStage_notStaged (s := s.popRequest) htag hj hk hp hr hst).trans (by rw [he])) hS
    (fun v hv => (State.putStateReason_of_job ((hv i).trans ht)).trans hb)

/-- Settles O15: the staged record is evaluated, and no other job waits for the change. -/
theorem stagedStoreBecomesReady : Obligations.StagedStoreBecomesReady := by
  intro n b i j s hS hlen htag hj hk hp hr hst hw hturn
  have hself : (s.popRequest.setJob i { j with staged := some true }).job i = some { j with staged := some true } :=
    State.job_setJob_self _ i _
  refine ⟨fun p hc hslot hd hdd hb => ?_, fun hc hone hrise => ⟨fun p hp' => ?_, fun hp' => ?_⟩⟩
  · refine completes_stage (k := { j with staged := some true, state := .ready, reason := none, assignment := none })
      hS.scratch hlen htag hj hk hp hr hst hturn ?_ (State.job_setJob_self _ i _) rfl
    rw [State.evaluate_explicit_front hself hk hc hslot rfl hd hdd hb,
      State.enterReady_setJob _ i (k := { j with staged := some true }) hw (by simp [hk])]
  · have hn : (s.popRequest.setJob i { j with staged := some true }).NoneWaits := by
      have : s.NoneWaits := State.noneWaits_of_one hrise hj (by simp [Job.waits, hr]) hone
      exact State.NoneWaits.setJob (s := s.popRequest) this i (by simp [Job.waits, hr])
    refine completes_stage (k := { j with
        staged := some true, slot := some p, state := .ready, reason := none, assignment := none })
      hS.scratch hlen htag hj hk hp hr hst hturn ?_ (State.job_setJob_self _ i _) rfl
    rw [State.evaluate_chosen_some hn hself hk hc rfl hw hp', State.setJob_putSlot_comm, State.setJob_setJob]
    rfl
  · refine completes_stage (k := { j with
        staged := some true, state := .pending, reason := some .noRoom, assignment := none })
      hS.scratch hlen htag hj hk hp hr hst hturn ?_ (State.job_setJob_self _ i _) rfl
    rw [State.evaluate_chosen_none hself hk hc rfl hw (by simp [hr]) hp', State.setJob_setJob]

end Sys2Proof.Machine
end

section
/-! The statements on WITHDRAW JOB, RETIRE JOB and RESOLVE JOB. -/

namespace Sys2Proof.Machine

/-! ## RETIRE JOB (R26) -/

/-- Settles O18: the record is freed, and no job waits for one. -/
theorem retiredRecordIsFree : Obligations.RetiredRecordIsFree := by
  intro n b i j s hS hnp hlen htag hdone hturn
  have hrow : requestRow 0x17 = some (everyPhase 0x17 4) := by decide
  refine completes_of_accepted (f := State.serveRetire b) (body := fun _ => []) rfl hturn
    (lengthAgrees_everyPhase hrow hlen) (admitted_everyPhase _ hrow) ?_ hS.scratch (fun _ _ => rfl)
  have htag' : s.popRequest.byTag (longAt b 0) = some (i, j) := htag
  have hn : ({ s.popRequest with done := s.done.filter (fun k => k != i) } : State).NoneWaits := hnp.noneWaits
  have hfree := State.freeRecord_of_noneWaits hn i
  simp only [State.serveRetire, htag', hdone, if_true]
  exact congrArg (fun t => accept t (fun _ => [])) hfree

/-! ## RESOLVE JOB (R27) -/

/-- A COMPLETED STORE that holds its slot, without group and link (R46). -/
theorem State.completeJob_store {s : State} (hn : s.NoneWaits) {i : Nat} {j : Job} {p : SlotPos} (h : s.job i = some j)
    (hk : j.kind = .store) (hp : j.slot = some p) (hv : (s.slot j.aisle p).reservation = some ⟨.into, i⟩)
    (hg : j.group = none) (hl : j.link = none) :
    s.completeJob i j = (s.putSlot j.aisle p { s.slot j.aisle p with
      condition := .occupied, pallet := some j.loadClass, reservation := none }).endsIn i j .completed := by
  have hsettle := State.settleSlot_of_noneWaits hn hv (Slot.filled j.loadClass)
  simp only [State.completeJob, hk, hp, hsettle]
  exact State.enterDone_plain (s := s.putSlot j.aisle p _) h hg hl .completed

/-- RESOLVE JOB on a STRANDED job completes with what the verdict makes of it. -/
theorem completes_resolve {n : Byte} {b body : List Byte} {i : Nat} {j k : Job} {v : Verdict} {s t : State}
    (hS : t.scratch = .empty) (hlen : b.length = 5) (htag : s.byTag (longAt b 0) = some (i, j))
    (hv : readVerdict (byteAt b 4) = some v) (hst : j.state = .stranded) (hturn : s.hasTurn ⟨0x18, n, b⟩)
    (he : s.popRequest.resolve i j v = t) (ht : t.job i = some k)
    (hb : put1 (stateCode k.state) ++ putOption 1 (fun o => put1 (outcomeCode o)) k.outcome = body) :
    Completes (.resolveJob n b) s (t.answer ⟨0x18, n, b⟩ .ok body) := by
  have hrow : requestRow 0x18 = some (everyPhase 0x18 5) := by decide
  have htag' : s.popRequest.byTag (longAt b 0) = some (i, j) := htag
  refine completes_of_accepted (f := State.serveResolve b) (body := fun _ => t.putStateOutcome i) rfl hturn
    (lengthAgrees_everyPhase hrow hlen) (admitted_everyPhase _ hrow) ?_ hS
    (fun _ _ => (State.putStateOutcome_of_job ht).trans hb)
  simp only [State.serveResolve, htag', hv, hst, if_true, he]

/-- Settles O19: NOT_MOVED is an entry into READY, COMPLETED the outcome of a STORE, and no job waits for the change. -/
theorem verdictSettlesStrandedStore : Obligations.VerdictSettlesStrandedStore := by
  intro n b i j p s hS hnp hlen htag hj hk hst hw hg hl hslot hres hturn
  refine ⟨fun hb => ?_, fun hb => ?_⟩
  · exact completes_resolve (k := { j with state := .ready, reason := none, assignment := none }) (v := .notMoved)
      hS.scratch hlen htag (by rw [hb]; rfl) hst hturn
      (State.enterReady_of_kept (s := s.popRequest) hj hw (by simp [hk])) (State.job_setJob_self _ i _)
      rfl
  · have hn : s.popRequest.NoneWaits := hnp.noneWaits
    exact completes_resolve (k := j.ended .completed) (v := .completed) hS.scratch hlen htag (by rw [hb]; rfl) hst hturn
      (State.completeJob_store (s := s.popRequest) hn hj hk hslot hres hg hl) (State.job_setJob_self _ i _)
      rfl

/-! ## WITHDRAW JOB at once (R21) -/

/-- The withdrawal of a job that holds one slot, without group and link, while no job waits (R8, R49). -/
theorem State.withdrawNow_plain {s : State} (hn : s.NoneWaits) {i : Nat} {j : Job} {p : SlotPos} {k : ResKind}
    (h : s.job i = some j) (hp : j.slot = some p) (ht : j.target = none) (hc : j.choice = none) (hg : j.group = none)
    (hl : j.link = none) (hv : (s.slot j.aisle p).reservation = some ⟨k, i⟩) :
    s.withdrawNow i = (s.putSlot j.aisle p { s.slot j.aisle p with reservation := none }).endsIn i j .withdrawn := by
  rw [State.withdrawNow, State.releaseReservations_one hn h hp ht hc hv]
  exact State.enterDone_plain (s := s.putSlot j.aisle p _) h hg hl .withdrawn

/-- The same of a dependent, whose link is dissolved at both ends (R12). -/
theorem State.withdrawNow_linked {s : State} (hn : s.NoneWaits) {i l : Nat} {j k : Job} {p : SlotPos} {x : ResKind}
    (h : s.job i = some j) (hp : j.slot = some p) (ht : j.target = none) (hc : j.choice = none) (hg : j.group = none)
    (hl : j.link = some l) (hj : j.kind ≠ .relocate) (hk : s.job l = some k) (hne : l ≠ i)
    (hv : (s.slot j.aisle p).reservation = some ⟨x, i⟩) :
    s.withdrawNow i = ((s.putSlot j.aisle p { s.slot j.aisle p with reservation := none }).endsIn i j .withdrawn).setJob l
      { k with link := none } := by
  rw [State.withdrawNow, State.releaseReservations_one hn h hp ht hc hv]
  exact State.enterDone_linked (s := s.putSlot j.aisle p _) h hg hl hj hk hne .withdrawn

/-- A relocation that holds both its slots becomes FREE directly, while no job waits (R12). -/
theorem State.freeDirectly_of_noneWaits {s : State} (hn : s.NoneWaits) {l : Nat} {k : Job} {q r : SlotPos}
    (h : s.job l = some k) (hq : k.slot = some q) (hr : k.target = some r) (hc : k.choice = none)
    (hvq : (s.slot k.aisle q).reservation = some ⟨.outOf, l⟩) (hvr : (s.slot k.aisle r).reservation = some ⟨.into, l⟩) :
    s.freeDirectly l =
      { ((s.putSlot k.aisle q { s.slot k.aisle q with reservation := none }).putSlot k.aisle r
          { s.slot k.aisle r with reservation := none }) with
        jobs := removeKey l s.jobs
        freeCount := s.freeCount + 1 } := by
  rw [State.freeDirectly, State.releaseReservations_two hn h hq hr hc hvq hvr]
  exact State.freeRecord_of_noneWaits (s := State.putSlot (State.putSlot s _ _ _) _ _ _) hn l

/-- WITHDRAW JOB on a PENDING or READY job that is no RELOCATE completes with what the withdrawal makes of it. -/
theorem completes_withdraw {n : Byte} {b body : List Byte} {i : Nat} {j k : Job} {s t : State} (hS : t.scratch = .empty)
    (hlen : b.length = 4) (htag : s.byTag (longAt b 0) = some (i, j)) (hk : j.kind ≠ .relocate)
    (hst : j.state = .pending ∨ j.state = .ready) (hturn : s.hasTurn ⟨0x14, n, b⟩)
    (he : s.popRequest.withdrawWaiting i j = t) (ht : t.job i = some k) {tag : Option Nat}
    (htagFreed : (s.relocationToFree j).bind (fun l => (s.job l).map Job.tag) = tag)
    (hb : put1 (stateCode k.state) ++ putOption 1 (fun o => put1 (outcomeCode o)) k.outcome ++ putOption 4 put4 tag =
      body) :
    Completes (.withdrawJob n b) s (t.answer ⟨0x14, n, b⟩ .ok body) := by
  have hrow : requestRow 0x14 = some (everyPhase 0x14 4) := by decide
  have htag' : s.popRequest.byTag (longAt b 0) = some (i, j) := htag
  refine completes_of_accepted (f := State.serveWithdraw b)
    (body := fun v => v.putStateOutcome i ++
      putOption 4 put4 ((s.relocationToFree j).bind (fun l => (s.job l).map Job.tag)))
    rfl hturn (lengthAgrees_everyPhase hrow hlen) (admitted_everyPhase _ hrow) ?_ hS
    (fun v hv => by rw [htagFreed, State.putStateOutcome_of_job ((hv i).trans ht), hb])
  subst he
  simp only [State.serveWithdraw, htag', if_neg hk]
  rcases hst with hst | hst <;> simp only [hst] <;> rfl

/-- The relocation of a withdrawn dependent becomes FREE with it (R21, R12). -/
theorem State.withdrawWaiting_linked {s u : State} (hn : s.NoneWaits) {i l : Nat} {j k : Job} {p q r : SlotPos}
    (h : s.job i = some j) (hp : j.slot = some p) (ht : j.target = none) (hc : j.choice = none) (hg : j.group = none)
    (hl : j.link = some l) (hj : j.kind = .retrieve) (hv : (s.slot j.aisle p).reservation = some ⟨.outOf, i⟩)
    (hk : s.job l = some k) (hkk : k.kind = .relocate) (hks : k.state = .ready) (hkc : k.choice = none)
    (hq : k.slot = some q) (hr : k.target = some r) (hvq : (s.slot k.aisle q).reservation = some ⟨.outOf, l⟩)
    (hvr : (s.slot k.aisle r).reservation = some ⟨.into, l⟩)
    (hu : u = (s.putSlot j.aisle p { s.slot j.aisle p with reservation := none }).endsIn i j .withdrawn) :
    s.withdrawWaiting i j =
      { ((u.putSlot k.aisle q { s.slot k.aisle q with reservation := none }).putSlot k.aisle r
          { s.slot k.aisle r with reservation := none }) with
        jobs := removeKey l u.jobs
        freeCount := s.freeCount + 1 } := by
  have hne : l ≠ i := by
    rintro rfl
    obtain rfl : j = k := Option.some.inj (h.symm.trans hk)
    rw [hj] at hkk
    cases hkk
  have hfree : s.relocationToFree j = some l := by simp [State.relocationToFree, hj, hl, hk, hkk, hks]
  have hwithdraw := State.withdrawNow_linked hn h hp ht hc hg hl (by simp [hj]) hk hne hv
  rw [← hu] at hwithdraw
  have hslot {b : Fin 16} {x : SlotPos} {y : ResKind} (hx : (s.slot b x).reservation = some ⟨y, l⟩) :
      u.slot b x = s.slot b x := by
    subst hu
    exact State.slot_putSlot_ne s j.aisle b p x _ (State.slotKey_ne_of_reservation (s := s) (by simp [hx, hv, hne]))
  have hwaits : (u.setJob l { k with link := none }).NoneWaits := by
    have hu' : u.NoneWaits := by
      subst hu
      exact State.NoneWaits.setJob hn i (j := j.ended .withdrawn) (Job.waits_of_state (by simp [Job.ended]))
    exact hu'.setJob l (Job.waits_of_state (by simp [hks]))
  have hcount : (u.setJob l { k with link := none }).freeCount = s.freeCount := by subst hu; rfl
  have hfreed := State.freeDirectly_of_noneWaits hwaits (State.job_setJob_self u l { k with link := none }) hq hr hkc
    (by rw [State.slot_setJob, hslot hvq, hvq]) (by rw [State.slot_setJob, hslot hvr, hvr])
  simp only [State.withdrawWaiting, hfree, hwithdraw, hfreed, hcount, State.slot_setJob, hslot hvq, hslot hvr,
    State.setJob_jobs, removeKey_insertKey, State.setJob_putSlot_comm]
  rfl

/-- Settles O16: the reservations are released, and no job waits for the room, the location or the record. -/
theorem withdrawnReadyJobIsDone : Obligations.WithdrawnReadyJobIsDone := by
  intro n b i j p s u hS hlen htag hj hk hg hslot htgt hc hres hturn hu
  have hk' : j.kind ≠ .relocate := by simp [hk]
  have hu' : u = (s.popRequest.putSlot j.aisle p { s.popRequest.slot j.aisle p with reservation := none }).endsIn i j
    .withdrawn := hu
  have hscratch : u.scratch = .empty := by rw [hu']; exact hS.scratch
  have hui : u.job i = some (j.ended .withdrawn) := by rw [hu']; exact State.job_setJob_self _ i _
  refine ⟨fun hnp hst hl => ?_, fun l k q r hrise hone hst hr hl hjl hkk hks hkc hq hr' hvq hvr => ?_⟩
  · have hfree : s.popRequest.relocationToFree j = none := by simp [State.relocationToFree, hl]
    refine completes_withdraw hscratch hlen htag hk' (.inr hst) hturn ?_ hui (tag := none)
      (by simp [State.relocationToFree, hl]) rfl
    simp only [State.withdrawWaiting, hfree]
    exact (State.withdrawNow_plain (s := s.popRequest) hnp.noneWaits hj hslot htgt hc hg hl hres).trans hu'.symm
  · have hn : s.NoneWaits := State.noneWaits_of_one hrise hj (by simp [Job.waits, hr]) hone
    have hne : i ≠ l := by
      rintro rfl
      exact hk' (Option.some.inj (hj.symm.trans hjl) ▸ hkk)
    refine completes_withdraw (k := j.ended .withdrawn) ?_ hlen htag hk' (.inl hst) hturn
      (State.withdrawWaiting_linked (s := s.popRequest) hn hj hslot htgt hc hg hl hk hres hjl hkk hks hkc hq hr' hvq hvr
        hu') ?_ (tag := some k.tag) ?_ rfl
    · exact hscratch
    · exact (lookup_removeKey_ne l i u.jobs hne).trans hui
    · simp [State.relocationToFree, hk, hl, hjl, hkk, hks]

/-! ## WITHDRAW JOB of an ACTIVE job (R22) -/

/-- On an UP line without an exchange and with nothing listed stale, the CANCEL of an accepted trip's one leg is sent when it
is wanted (R119, R160). -/
theorem State.sendWaiting_cancel {s : State} {c : Fin 8} {t : Trip} {i index : Nat} (hlink : (s.line c).link = .up)
    (hx : (s.line c).exchange = none) (hstale : (s.line c).stale = []) (htrip : (s.line c).trip = some t)
    (hacc : t.accepted = true) (hlegs : t.legs = [⟨index, i, false, true, false⟩]) :
    s.sendWaiting c = s.setLine c { s.line c with
      trip := some { t with legs := [⟨index, i, false, true, true⟩] }
      exchange := some ⟨.cancel t.number index, .cancel t.number index, 0, s.settings.tack⟩
      sent := (s.line c).sent ++ [Telegram.cancel t.number index] } := by
  have horder : (s.line c).tripToOrder = none := by simp [Line.tripToOrder, htrip, hacc]
  have hcancel : (s.line c).legToCancel = some (t.number, ⟨index, i, false, true, false⟩) := by
    simp [Line.legToCancel, htrip, hacc, hlegs, Leg.wantsCancel]
  simp [State.sendWaiting, hlink, hx, horder, hstale, hcancel, State.openExchange, State.send, State.updateLine,
    Line.markLeg, htrip, hlegs]

/-- Cancel wanted is set on the one leg of a trip (R160). -/
theorem State.wantCancel_marks {s : State} {c : Fin 8} {t : Trip} {i index : Nat} (htrip : (s.line c).trip = some t)
    (hlegs : t.legs = [⟨index, i, false, false, false⟩]) :
    s.wantCancel c i = (s.setLine c { s.line c with
      trip := some { t with legs := [⟨index, i, false, true, false⟩] } }).sendWaiting c := by
  simp [State.wantCancel, State.updateLine, htrip, hlegs]

/-- The withdrawal of the job of a trip's one leg sends its CANCEL when the line allows (R160, R119). -/
theorem State.wantCancel_sends {s : State} {c : Fin 8} {t : Trip} {i index : Nat} (hlink : (s.line c).link = .up)
    (hx : (s.line c).exchange = none) (hstale : (s.line c).stale = []) (htrip : (s.line c).trip = some t)
    (hacc : t.accepted = true) (hlegs : t.legs = [⟨index, i, false, false, false⟩]) :
    s.wantCancel c i = s.setLine c { s.line c with
      trip := some { t with legs := [⟨index, i, false, true, true⟩] }
      exchange := some ⟨.cancel t.number index, .cancel t.number index, 0, s.settings.tack⟩
      sent := (s.line c).sent ++ [Telegram.cancel t.number index] } := by
  rw [State.wantCancel_marks htrip hlegs]
  generalize hm : ({ s.line c with trip := some { t with legs := [⟨index, i, false, true, false⟩] } } : Line) = m
  have hline : (s.setLine c m).line c = m := State.line_setLine s c m
  have hmtrip : m.trip = some { t with legs := [⟨index, i, false, true, false⟩] } := by rw [← hm]
  rw [State.sendWaiting_cancel (t := { t with legs := [⟨index, i, false, true, false⟩] }) (index := index)
    (by rw [hline, ← hm]; exact hlink) (by rw [hline, ← hm]; exact hx) (by rw [hline, ← hm]; exact hstale)
    (by rw [hline]; exact hmtrip) hacc rfl, hline, State.setLine_setLine, ← hm]
  rfl

/-- Settles O17: the mark is set on the leg, and the line sends its CANCEL. -/
theorem withdrawnActiveJobIsCancelled : Obligations.WithdrawnActiveJobIsCancelled := by
  intro n b i j x t s hS hlen htag hj hk hst hw hx hlink hex hstale htrip hacc hlegs hturn
  have hrow : requestRow 0x14 = some (everyPhase 0x14 4) := by decide
  have hserve : s.popRequest.serveWithdraw b =
      accept (s.popRequest.requestWithdrawal i j) (fun v => v.putState i) := by
    have htag' : s.popRequest.byTag (longAt b 0) = some (i, j) := htag
    simp only [State.serveWithdraw, htag', if_neg hk, hst]
  have hrequest : s.popRequest.requestWithdrawal i j =
      (s.popRequest.setJob i { j with withdrawRequested := true }).wantCancel x.crane i := by
    simp [State.requestWithdrawal, hw, hst, hx]
  have hsends := State.wantCancel_sends (s := s.popRequest.setJob i { j with withdrawRequested := true }) hlink hex hstale
    htrip hacc hlegs
  exact completes_of_accepted rfl hturn (lengthAgrees_everyPhase hrow hlen) (admitted_everyPhase _ hrow)
    (hserve.trans (by rw [hrequest, hsends]; rfl)) hS.scratch
    (fun v hv => (State.putState_of_job ((hv i).trans (State.job_setJob_self _ i _))).trans (by rw [hst]; rfl))

end Sys2Proof.Machine
end

section
/-! The statement on the queries of a record. -/

namespace Sys2Proof.Machine

theorem readGroup_of_group (g : Fin 16) {n : Nat} (h : n = g.val + 1) : readGroup n = some g := by
  have hg := g.isLt
  rw [readGroup, if_pos (by omega), h, Nat.add_sub_cancel, Fin.ofNat_val_eq_self]

theorem readAisle_of_aisle (a : Fin 16) {n : Nat} (h : n = a.val) : readAisle n = some a := by
  rw [readAisle, h, if_pos a.isLt, Fin.ofNat_val_eq_self]

theorem readCrane_of_crane (c : Fin 8) {n : Nat} (h : n = c.val) : readCrane n = some c := by
  rw [readCrane, h, if_pos c.isLt, Fin.ofNat_val_eq_self]

/-- A query admitted in every phase, of the right length, answers with what its owner looks up and changes nothing. -/
theorem exec_query {i : Instr} {s : State} {c n : Byte} {b body : List Byte} {len : Nat}
    {f : State → Status × List Byte} (he : exec i s = .next (s.hostRequest ⟨c, n, b⟩ (fun t => t.handleQuery ⟨c, n, b⟩ f)))
    (hrow : requestRow c = some (everyPhase c len)) (hlen : b.length = len) (ht : s.hasTurn ⟨c, n, b⟩)
    (hv : f s.popRequest = (.ok, body)) : exec i s = .next (s.popRequest.answer ⟨c, n, b⟩ .ok body) := by
  rw [he, State.hostRequest_query s _ f body ht (lengthAgrees_everyPhase hrow hlen) (admitted_everyPhase _ hrow) hv]

/-- The same of a query without a record. -/
theorem exec_queryNone {i : Instr} {s : State} {c n : Byte} {b : List Byte} {len : Nat} {x : Status}
    {f : State → Status × List Byte} (he : exec i s = .next (s.hostRequest ⟨c, n, b⟩ (fun t => t.handleQuery ⟨c, n, b⟩ f)))
    (hrow : requestRow c = some (everyPhase c len)) (hlen : b.length = len) (ht : s.hasTurn ⟨c, n, b⟩)
    (hv : f s.popRequest = (x, [])) (hx : x.carriedOut = false) :
    exec i s = .next (s.popRequest.answer ⟨c, n, b⟩ x []) := by
  rw [he, State.hostRequest_queryNone s _ f x [] ht (lengthAgrees_everyPhase hrow hlen) (admitted_everyPhase _ hrow) hv hx]

theorem State.putQueriedJob_of_job {s : State} {i : Nat} {j : Job} (h : s.job i = some j) :
    s.putQueriedJob i = putJob i j ++ putFlag (s.jobHeld j) := by simp only [State.putQueriedJob, h]

/-- QUERY JOB (R24). -/
theorem State.lookJob_of_tag {s : State} {b : List Byte} {i : Nat} {j : Job} (ht : s.byTag (longAt b 0) = some (i, j))
    (hj : s.job i = some j) : s.lookJob b = (.ok, putJob i j ++ putFlag (s.jobHeld j)) := by
  simp only [State.lookJob, ht, State.putQueriedJob_of_job hj]

theorem State.lookJob_of_noTag {s : State} {b : List Byte} (ht : s.byTag (longAt b 0) = none) :
    s.lookJob b = (.unknownTag, []) := by simp only [State.lookJob, ht]

/-- NEXT DONE (R25). -/
theorem State.lookDone_of_head {s : State} {i : Nat} {rest : List Nat} {j : Job} (hd : s.done = i :: rest)
    (hj : s.job i = some j) : s.lookDone = (.ok, putJob i j ++ putFlag (s.jobHeld j)) := by
  simp only [State.lookDone, hd, State.putQueriedJob_of_job hj]

/-- QUERY SLOT of a slot of the geometry (R53). -/
theorem State.lookSlot_of_slot {s : State} {b : List Byte}
    (h : s.hasSlot (readSlotAddress (tripleAt b 0)).aisle (readSlotAddress (tripleAt b 0)).pos = true) :
    s.lookSlot b =
      (.ok, s.putSlotRecord (readSlotAddress (tripleAt b 0)).aisle (readSlotAddress (tripleAt b 0)).pos) := by
  have hg : (s.aisle (readSlotAddress (tripleAt b 0)).aisle).geometry.isNone = false := by
    cases hgeo : (s.aisle (readSlotAddress (tripleAt b 0)).aisle).geometry with
    | none => simp [State.hasSlot, hgeo] at h
    | some g => rfl
  simp only [State.lookSlot, hg, h, Bool.false_eq_true, if_false, if_true]

/-- Eligibility does not read the port. -/
@[simp] theorem State.eligible_popRequest (s : State) (c : Fin 8) : s.popRequest.eligible c = s.eligible c :=
  Bool.eq_iff_iff.2 ⟨State.eligible_mono s.popRequest s c rfl rfl rfl rfl id (fun _ => id),
    State.eligible_mono s s.popRequest c rfl rfl rfl rfl id (fun _ => id)⟩

theorem State.putCrane_popRequest (s : State) (c : Fin 8) : s.popRequest.putCrane c = s.putCrane c := by
  unfold State.putCrane
  rw [State.eligible_popRequest]
  rfl

/-- Settles O20: each query is admitted in every phase, and its owner looks up the record it names. -/
theorem recordQueriesChangeNothing : Obligations.RecordQueriesChangeNothing := by
  intro n b s
  refine ⟨fun hlen ht => ⟨fun i j htag hj => ?_, fun htag => ?_⟩, fun hlen ht => ⟨fun i rest j hd hj => ?_, fun hd => ?_⟩,
    ?_, fun g hlen hg ht => ?_, fun a hlen ha ht => ?_, fun hlen ht => ?_, fun c hlen hc ht => ?_⟩
  · exact exec_query (len := 4) rfl (by decide) hlen ht (State.lookJob_of_tag (s := s.popRequest) htag hj)
  · exact exec_queryNone (len := 4) rfl (by decide) hlen ht (State.lookJob_of_noTag (s := s.popRequest) htag) rfl
  · exact exec_query (len := 0) rfl (by decide) hlen ht (State.lookDone_of_head (s := s.popRequest) hd hj)
  · have hnone : s.popRequest.lookDone = (.none, []) := by
      simp only [State.lookDone, State.popRequest_done, hd]
    exact exec_queryNone (len := 0) rfl (by decide) hlen ht hnone rfl
  · rintro x hlen rfl hslot ht
    exact exec_query (len := 3) rfl (by decide) hlen ht (State.lookSlot_of_slot (s := s.popRequest) hslot)
  · have hlook : s.popRequest.lookGroup b = (.ok, s.popRequest.putQueriedGroup g) := by
      simp only [State.lookGroup, readGroup_of_group g hg]
    exact exec_query (len := 1) rfl (by decide) hlen ht hlook
  · have hlook : s.popRequest.lookAisle b = (.ok, (s.popRequest.aisle a).putQueried) := by
      simp only [State.lookAisle, readAisle_of_aisle a ha]
    exact exec_query (len := 1) rfl (by decide) hlen ht hlook
  · exact exec_query (len := 0) rfl (by decide) hlen ht rfl
  · have hlook : s.popRequest.lookCrane b = (.ok, s.putCrane c) := by
      simp only [State.lookCrane, readCrane_of_crane c hc, State.putCrane_popRequest]
    exact exec_query (len := 1) rfl (by decide) hlen ht hlook

end Sys2Proof.Machine
end

section
/-! The statement on POST JOB and POST BATCH. -/

namespace Sys2Proof.Machine

/-! ## The lowest FREE record (R5) -/

theorem insertKey_comm_of_lt {α : Type} {k m : Nat} (h : k < m) (v w : α) (l : List (Nat × α)) :
    insertKey k v (insertKey m w l) = insertKey m w (insertKey k v l) := by
  induction l with
  | nil => simp (disch := omega) only [insertKey, if_pos, if_neg]
  | cons e rest ih =>
    obtain ⟨n, x⟩ := e
    rcases Nat.lt_trichotomy m n with hm | hm | hm
    · simp (disch := omega) only [insertKey, if_pos, if_neg]
    · simp (disch := omega) only [insertKey, if_pos, if_neg]
    · rcases Nat.lt_trichotomy k n with hk | hk | hk
      · simp (disch := omega) only [insertKey, if_pos, if_neg]
      · simp (disch := omega) only [insertKey, if_pos, if_neg]
      · simp (disch := omega) only [insertKey, if_neg, ih]

/-- Writes under different keys may be exchanged. -/
theorem insertKey_comm {α : Type} {k m : Nat} (h : k ≠ m) (v w : α) (l : List (Nat × α)) :
    insertKey k v (insertKey m w l) = insertKey m w (insertKey k v l) := by
  rcases Nat.lt_or_gt_of_ne h with hlt | hgt
  · exact insertKey_comm_of_lt hlt v w l
  · exact (insertKey_comm_of_lt hgt w v l).symm

/-- Writing a record under a key gives the same keys whatever the record. -/
theorem keys_insertKey {α : Type} (k : Nat) (v w : α) (l : List (Nat × α)) :
    (insertKey k v l).map Prod.fst = (insertKey k w l).map Prod.fst := by
  induction l with
  | nil => rfl
  | cons e rest ih =>
    obtain ⟨n, x⟩ := e
    simp only [insertKey]
    split
    · rfl
    · split
      · rfl
      · simp only [List.map_cons, ih]

theorem firstGap_congr {α : Type} (k : Nat) (l m : List (Nat × α)) (h : l.map Prod.fst = m.map Prod.fst) :
    firstGap k l = firstGap k m := by
  induction l generalizing k m with
  | nil =>
    cases m with
    | nil => rfl
    | cons => simp at h
  | cons e rest ih =>
    cases m with
    | nil => simp at h
    | cons f more =>
      simp only [List.map_cons, List.cons.injEq] at h
      simp only [firstGap, h.1, ih _ more h.2]

/-! ## The checks of R15 -/

theorem firstFailing_eq_none (l : List (Bool × Status)) : firstFailing l = none ↔ ∀ e ∈ l, e.1 = true := by
  induction l with
  | nil => simp [firstFailing]
  | cons e rest ih =>
    obtain ⟨holds, status⟩ := e
    cases holds <;> simp [firstFailing, ih]

/-- What a descriptor that passes the checks of R15 needs no further look at. -/
theorem State.checkPost_eq_none {s : State} {d : Descriptor} (h : s.checkPost d = none) :
    s.phase ≠ .loading ∧ d.inRange = true ∧ 32 < s.freeCount := by
  have hall := (firstFailing_eq_none _).1 h
  simp only [List.mem_cons, List.not_mem_nil, or_false, forall_eq_or_imp, forall_eq, bne_iff_ne, decide_eq_true_eq]
    at hall
  obtain ⟨hphase, hrange, -, -, -, hfree, -⟩ := hall
  exact ⟨hphase, hrange, hfree⟩

/-- The record of a RETRIEVE in range is that of its READY job, waiting for its evaluation (R16). -/
theorem Descriptor.record_of_retrieve {d : Descriptor} (h : d.isRetrieve = true) (hr : d.inRange = true) :
    d.record = { d.readyRetrieve with state := .pending } ∧ d.choice = .explicit ∧ d.isStore = false := by
  have hs : d.isStore = false := by
    simp only [Descriptor.isRetrieve, beq_iff_eq] at h
    simp [Descriptor.isStore, h]
  have hc : d.choice = .explicit := by
    simp only [Descriptor.inRange, h, hs, Bool.and_eq_true, Bool.or_eq_true, Bool.not_true, Bool.false_eq_true,
      false_or, beq_iff_eq] at hr
    exact hr.1.2.1
  exact ⟨by simp [Descriptor.record, Descriptor.readyRetrieve, hs, hc], hc, hs⟩

/-! ## A posted RETRIEVE in its record (R16) -/

/-- The RETRIEVE of descriptor `d` stands in the lowest FREE record as `j`: OUT is placed on its slot and its group told of
a member. -/
def State.posted (s : State) (d : Descriptor) (j : Job) : State :=
  ((s.takeRecord s.lowestFree j).putSlot d.address.aisle d.address.pos
    { s.slot d.address.aisle d.address.pos with reservation := some ⟨.outOf, s.lowestFree⟩ }).joinPosted d

theorem State.joinPosted_cases (s : State) (d : Descriptor) : ∃ g, s.joinPosted d = { s with groups := g } := by
  unfold State.joinPosted
  split
  · exact ⟨s.groups, rfl⟩
  · exact ⟨_, rfl⟩

theorem State.posted_jobs (s : State) (d : Descriptor) (j : Job) :
    (s.posted d j).jobs = insertKey s.lowestFree j s.jobs := by
  obtain ⟨g, h⟩ := State.joinPosted_cases ((s.takeRecord s.lowestFree j).putSlot d.address.aisle d.address.pos _) d
  rw [State.posted, h]
  rfl

theorem State.posted_freeCount (s : State) (d : Descriptor) (j : Job) :
    (s.posted d j).freeCount = s.freeCount - 1 := by
  obtain ⟨g, h⟩ := State.joinPosted_cases ((s.takeRecord s.lowestFree j).putSlot d.address.aisle d.address.pos _) d
  rw [State.posted, h]
  rfl

theorem State.posted_scratch (s : State) (d : Descriptor) (j : Job) : (s.posted d j).scratch = s.scratch := by
  obtain ⟨g, h⟩ := State.joinPosted_cases ((s.takeRecord s.lowestFree j).putSlot d.address.aisle d.address.pos _) d
  rw [State.posted, h]
  rfl

theorem State.posted_slot (s : State) (d : Descriptor) (j : Job) (a : Fin 16) (p : SlotPos) :
    (s.posted d j).slot a p = (s.putSlot d.address.aisle d.address.pos
      { s.slot d.address.aisle d.address.pos with reservation := some ⟨.outOf, s.lowestFree⟩ }).slot a p := by
  obtain ⟨g, h⟩ := State.joinPosted_cases ((s.takeRecord s.lowestFree j).putSlot d.address.aisle d.address.pos _) d
  rw [State.posted, h]
  rfl

theorem State.posted_setJob (s : State) (d : Descriptor) (j k : Job) :
    (s.posted d j).setJob s.lowestFree k = s.posted d k := by
  have htake : (s.takeRecord s.lowestFree j).setJob s.lowestFree k = s.takeRecord s.lowestFree k := by
    simp only [State.setJob, State.takeRecord, insertKey_insertKey]
  have hjoin (t : State) : (t.joinPosted d).setJob s.lowestFree k = (t.setJob s.lowestFree k).joinPosted d := by
    unfold State.joinPosted
    split <;> rfl
  rw [State.posted, hjoin, ← State.setJob_putSlot_comm, htake, State.posted]

theorem State.posted_job (s : State) (d : Descriptor) (j : Job) : (s.posted d j).job s.lowestFree = some j := by
  rw [State.job, State.posted_jobs]
  exact lookup_insertKey_self _ _ _

theorem State.NoneWaits.posted {s : State} (h : s.NoneWaits) (d : Descriptor) {j : Job} (hw : j.waits = false) :
    (s.posted d j).NoneWaits := by
  unfold State.NoneWaits
  rw [State.posted_jobs]
  exact State.NoneWaits.setJob h s.lowestFree hw

theorem State.posted_lowestFree (s : State) (d : Descriptor) (j k : Job) :
    (s.posted d j).lowestFree = (s.posted d k).lowestFree := by
  unfold State.lowestFree
  rw [State.posted_jobs, State.posted_jobs]
  exact firstGap_congr 0 _ _ (keys_insertKey _ j k _)

/-- A RETRIEVE that passes the checks is taken and evaluated (R16). -/
theorem State.takePost_retrieve {s : State} (hn : s.NoneWaits) {d : Descriptor} (hret : d.isRetrieve = true)
    (hr : d.inRange = true) :
    s.takePost d = (s.posted d { d.readyRetrieve with state := .pending }).evaluate s.lowestFree := by
  obtain ⟨hrec, hc, hs⟩ := Descriptor.record_of_retrieve hret hr
  have hn' : (s.takeRecord s.lowestFree d.record).NoneWaits :=
    State.NoneWaits.setJob hn s.lowestFree (by simp [hrec, Descriptor.readyRetrieve, Job.waits])
  rw [State.takePost, State.reservePosted, if_pos hc, State.reserve_of_noneWaits hn', hs, hrec]
  rfl

/-- POST JOB at its owner, when the checks pass. -/
theorem State.servePost_ok {s t : State} {b : List Byte} (h : s.checkPost (readDescriptor b 0) = none)
    (ht : s.takePost (readDescriptor b 0) = t) :
    s.servePost b = accept t (fun v => put2 s.lowestFree ++ v.putStateReason s.lowestFree ++
      putOption 4 put4 (v.linkedTag s.lowestFree)) := by
  simp only [State.servePost, h, ht]

/-- POST BATCH of one entry at its owner, when the checks pass and nothing is collected (R17). -/
theorem State.serveBatch_one {s t : State} {b : List Byte} (h : s.checkPost (readDescriptor b 0) = none)
    (ht : s.takePost (readDescriptor b 0) = t) (hq : t.Quiet) :
    s.serveBatch (1 :: b) = accept t (fun _ => put2 s.lowestFree ++ t.putState s.lowestFree) := by
  have hcount : byteAt (1 :: b) 0 = 1 := rfl
  have hentry : readDescriptor (1 :: b) (1 + 14 * 0) = readDescriptor b 0 := rfl
  simp only [State.serveBatch, hcount, takeEntries, hentry, h, ht, State.settleEvaluations_quiet t hq]
  simp

theorem State.linkedTag_of_job {s : State} {i : Nat} {j : Job} (h : s.job i = some j) :
    s.linkedTag i = j.link.bind (fun l => (s.job l).map Job.tag) := by
  cases hl : j.link <;> simp [State.linkedTag, h, hl]

/-! ## A RETRIEVE of a FRONT slot (R41) -/

/-- A PENDING RETRIEVE of an OCCUPIED FRONT slot enters READY. -/
theorem State.evaluate_retrieve_front {s : State} {i : Nat} {j : Job} {p : SlotPos} (h : s.job i = some j)
    (hk : j.kind = .retrieve) (hslot : j.slot = some p) (hd : p.depth = .front)
    (ho : (s.slot j.aisle p).condition = .occupied) : s.evaluate i = s.enterReady i := by
  simp [State.evaluate, h, hk, hslot, State.evaluateRetrieve, ho, hd]

theorem State.posted_slot_self (s : State) (d : Descriptor) (j : Job) :
    (s.posted d j).slot d.address.aisle d.address.pos =
      { s.slot d.address.aisle d.address.pos with reservation := some ⟨.outOf, s.lowestFree⟩ } := by
  rw [State.posted_slot, State.slot_putSlot_self]

/-- The RETRIEVE of an OCCUPIED FRONT slot is READY when it has been taken. -/
theorem State.takePost_front {s : State} (hn : s.NoneWaits) {d : Descriptor} (hret : d.isRetrieve = true)
    (hr : d.inRange = true) (hd : d.address.pos.depth = .front)
    (ho : (s.slot d.address.aisle d.address.pos).condition = .occupied) :
    s.takePost d = (s.posted d d.readyRetrieve).tellDispatcher := by
  have hocc : ((s.posted d { d.readyRetrieve with state := .pending }).slot d.address.aisle d.address.pos).condition =
      .occupied := by rw [State.posted_slot_self]; exact ho
  have hjob := State.posted_job s d { d.readyRetrieve with state := .pending }
  rw [State.takePost_retrieve hn hret hr, State.evaluate_retrieve_front hjob rfl rfl hd hocc,
    State.enterReady_of_kept hjob rfl (by simp [Descriptor.readyRetrieve]), State.posted_setJob]
  rfl

/-! ## A RETRIEVE of a REAR slot (R42) -/

theorem firstLeast_mem {α : Type} (f : α → Nat) (l : List α) (x : α) (h : firstLeast f l = some x) : x ∈ l := by
  induction l generalizing x with
  | nil => cases h
  | cons y ys ih =>
    simp only [firstLeast] at h
    split at h
    · cases h; exact List.mem_cons_self
    · rename_i z hz
      split at h
      · cases h; exact List.mem_cons_self
      · cases h; exact List.mem_cons_of_mem _ (ih _ hz)

/-- What store choice finds is a candidate (R40). -/
theorem State.choiceCandidate_of_chooseSlot {s : State} {a : Fin 16} {k : Nat} {start : Nat × Nat}
    {besides : Option SlotPos} {q : SlotPos} (h : s.chooseSlot a k start besides = some q) :
    s.choiceCandidate a k q = true := by
  unfold State.chooseSlot at h
  split at h
  · cases h
  · have hmem := (List.mem_filter.1 (firstLeast_mem _ _ _ h)).2
    exact (Bool.and_eq_true_iff.1 hmem).1

theorem State.condition_of_chooseSlot {s : State} {a : Fin 16} {k : Nat} {start : Nat × Nat}
    {besides : Option SlotPos} {q : SlotPos} (h : s.chooseSlot a k start besides = some q) :
    (s.slot a q).condition = .empty := by
  have hc := State.choiceCandidate_of_chooseSlot h
  simp only [State.choiceCandidate, Bool.and_eq_true, beq_iff_eq] at hc
  exact hc.1.1.1.1

/-- The slot that store choice finds is another than an OCCUPIED one. -/
theorem State.slotKey_ne_of_chooseSlot {s : State} {a b : Fin 16} {k : Nat} {start : Nat × Nat} {besides : Option SlotPos}
    {p q : SlotPos} (h : s.chooseSlot a k start besides = some q) (ho : (s.slot b p).condition = .occupied) :
    slotKey a q ≠ slotKey b p := by
  intro hkey
  have hab : a = b := Fin.ext (by rw [← slotKey_aisle a q, ← slotKey_aisle b p, hkey])
  subst hab
  have hsame : s.slot a q = s.slot a p := by simp only [State.slot, hkey]
  have hempty := State.condition_of_chooseSlot h
  rw [hsame, ho] at hempty
  cases hempty

/-- The relocation is made and linked with its dependent, which waits for it (R42, R4). -/
theorem State.synthesise_ok {s : State} (hn : s.NoneWaits) {i k : Nat} {j : Job} {p target : SlotPos}
    (h : s.job i = some j) (hj : j.kind ≠ .relocate) (hw : j.withdrawRequested = false) (hfree : s.freeCount ≠ 0)
    (hne : i ≠ s.lowestFree) (ho : (s.slot j.aisle (p.atDepth .front)).condition = .occupied)
    (hpal : (s.slot j.aisle (p.atDepth .front)).pallet = some k)
    (hchoice : s.chooseSlot j.aisle k (p.bay, p.level) (some p) = some target) :
    s.synthesise i j p =
      ((((s.takeRecord s.lowestFree (relocationRecord j i s.lowestFree (p.atDepth .front) target k)).putSlot j.aisle
        (p.atDepth .front) { s.slot j.aisle (p.atDepth .front) with reservation := some ⟨.outOf, s.lowestFree⟩ }).putSlot
        j.aisle target { s.slot j.aisle target with reservation := some ⟨.into, s.lowestFree⟩ }).tellDispatcher).setJob i
        { j with state := .pending, reason := some .prerequisite, link := some s.lowestFree, assignment := none } := by
  generalize hidx : s.lowestFree = idx at hne
  generalize hrec : relocationRecord j i idx (p.atDepth .front) target k = r
  have hn1 : (s.takeRecord idx r).NoneWaits :=
    State.NoneWaits.setJob hn idx (by rw [← hrec]; exact Job.waits_of_state (by simp [relocationRecord]))
  have hslot (w : Slot) : ((s.takeRecord idx r).putSlot j.aisle (p.atDepth .front) w).slot j.aisle target =
      s.slot j.aisle target :=
    State.slot_putSlot_ne (s.takeRecord idx r) j.aisle j.aisle (p.atDepth .front) target w
      (State.slotKey_ne_of_chooseSlot hchoice ho)
  have hfront : (s.takeRecord idx r).reserve j.aisle (p.atDepth .front) .outOf idx =
      (s.takeRecord idx r).putSlot j.aisle (p.atDepth .front)
        { s.slot j.aisle (p.atDepth .front) with reservation := some ⟨.outOf, idx⟩ } :=
    State.reserve_of_noneWaits hn1 _ _ _ _
  have htarget (w : Slot) : ((s.takeRecord idx r).putSlot j.aisle (p.atDepth .front) w).reserve j.aisle target .into idx =
      ((s.takeRecord idx r).putSlot j.aisle (p.atDepth .front) w).putSlot j.aisle target
        { s.slot j.aisle target with reservation := some ⟨.into, idx⟩ } := by
    rw [State.reserve_of_noneWaits (s := (s.takeRecord idx r).putSlot j.aisle (p.atDepth .front) w) hn1, hslot]
  have hjob (w x : Slot) : ((((s.takeRecord idx r).putSlot j.aisle (p.atDepth .front) w).putSlot j.aisle target
      x).tellDispatcher).job i = some j := (lookup_insertKey_ne idx i r s.jobs hne).trans h
  simp only [State.synthesise, if_neg hfree, hpal, Option.getD_some, hchoice, hidx, hrec, hfront, htarget,
    State.updateJob_of_job (hjob _ _)]
  exact State.enterPending_setJob _ i (k := { j with link := some idx }) hw hj (by simp)

/-- A PENDING RETRIEVE of an OCCUPIED REAR slot behind an OCCUPIED and unreserved FRONT slot gets a relocation (R41). -/
theorem State.evaluate_retrieve_rear {s : State} {i : Nat} {j : Job} {p : SlotPos} (h : s.job i = some j)
    (hk : j.kind = .retrieve) (hslot : j.slot = some p) (hd : p.depth = .rear)
    (ho : (s.slot j.aisle p).condition = .occupied) (hfo : (s.slot j.aisle (p.atDepth .front)).condition = .occupied)
    (hfr : (s.slot j.aisle (p.atDepth .front)).reservation = none) : s.evaluate i = s.synthesise i j p := by
  have hpass : s.frontPassable j.aisle p = false := by simp [State.frontPassable, hfo]
  simp [State.evaluate, h, hk, hslot, State.evaluateRetrieve, ho, hd, hpass, hfo, hfr]

theorem slotKey_front_ne_rear (a : Fin 16) {p : SlotPos} (hd : p.depth = .rear) :
    slotKey a (p.atDepth .front) ≠ slotKey a p := by
  simp only [slotKey, SlotPos.atDepth, hd]
  omega

/-- The state that a posted RETRIEVE of the REAR slot behind `front` leaves: the relocation stands in the next FREE record
of `u`, linked with its dependent in record `i` (R42). -/
def State.relocating (u : State) (d : Descriptor) (i : Nat) (front target : SlotPos) (k : Nat) : State :=
  ((((u.takeRecord u.lowestFree (d.relocation i u.lowestFree front target k)).putSlot d.address.aisle front
    { u.slot d.address.aisle front with reservation := some ⟨.outOf, u.lowestFree⟩ }).putSlot d.address.aisle target
    { u.slot d.address.aisle target with reservation := some ⟨.into, u.lowestFree⟩ }).setJob i { d.readyRetrieve with
      state := .pending, reason := some .prerequisite, link := some u.lowestFree }).tellDispatcher

/-- What a record held before another was taken does not matter once it is written again. -/
theorem State.takeRecord_setJob_over (u : State) {i idx : Nat} (hne : i ≠ idx) (j r w : Job) :
    ((u.setJob i j).takeRecord idx r).setJob i w = (u.takeRecord idx r).setJob i w := by
  simp only [State.setJob, State.takeRecord, insertKey_comm hne.symm, insertKey_insertKey]

/-- The evaluation of a posted RETRIEVE of an OCCUPIED REAR slot behind an OCCUPIED and unreserved FRONT slot. -/
theorem State.evaluate_relocating {u : State} (hn : u.NoneWaits) {d : Descriptor} {i k : Nat} {front target : SlotPos}
    (hd : d.address.pos.depth = .rear) (hfront : front = d.address.pos.atDepth .front)
    (ho : (u.slot d.address.aisle d.address.pos).condition = .occupied)
    (hfo : (u.slot d.address.aisle front).condition = .occupied)
    (hfr : (u.slot d.address.aisle front).reservation = none) (hfp : (u.slot d.address.aisle front).pallet = some k)
    (hchoice : u.chooseSlot d.address.aisle k (front.bay, front.level) (some d.address.pos) = some target)
    (hcount : u.freeCount ≠ 0) (hne : i ≠ u.lowestFree)
    (hidx : (u.setJob i { d.readyRetrieve with state := .pending }).lowestFree = u.lowestFree) :
    (u.setJob i { d.readyRetrieve with state := .pending }).evaluate i = u.relocating d i front target k := by
  subst hfront
  have hjob := State.job_setJob_self u i { d.readyRetrieve with state := .pending }
  have hwaits : (u.setJob i { d.readyRetrieve with state := .pending }).NoneWaits :=
    hn.setJob i (by simp [Job.waits, Descriptor.readyRetrieve])
  rw [State.evaluate_retrieve_rear hjob rfl rfl hd ho hfo hfr,
    State.synthesise_ok hwaits hjob (by simp [Descriptor.readyRetrieve]) rfl hcount (by rw [hidx]; exact hne) hfo hfp
      hchoice, hidx, State.tellDispatcher_setJob_comm, ← State.setJob_putSlot_comm, ← State.setJob_putSlot_comm,
    State.takeRecord_setJob_over u hne]
  rfl

/-- The next FREE record is another than the one just taken. -/
theorem State.posted_lowestFree_ne {s : State} (hrise : rising s.jobs = true) (d : Descriptor) (j : Job) :
    s.lowestFree ≠ (s.posted d j).lowestFree := by
  intro heq
  have hr : rising (s.posted d j).jobs = true := by
    rw [State.posted_jobs]
    exact rising_insertKey _ _ _ hrise
  have hfree : (s.posted d j).job (s.posted d j).lowestFree = none :=
    (firstGap_spec 0 _ hr (fun _ _ => Nat.zero_le _)).2.2
  rw [← heq, State.posted_job] at hfree
  cases hfree

/-- The RETRIEVE of an OCCUPIED REAR slot behind an OCCUPIED and unreserved FRONT slot waits for its relocation when it
has been taken. -/
theorem State.takePost_rear {s u : State} (hn : s.NoneWaits) (hrise : rising s.jobs = true) {d : Descriptor}
    (hret : d.isRetrieve = true) (hr : d.inRange = true) (hfree : 32 < s.freeCount) (hd : d.address.pos.depth = .rear)
    (ho : (s.slot d.address.aisle d.address.pos).condition = .occupied) {front target : SlotPos} {k : Nat}
    (hfront : front = d.address.pos.atDepth .front) (hfo : (s.slot d.address.aisle front).condition = .occupied)
    (hfr : (s.slot d.address.aisle front).reservation = none) (hfp : (s.slot d.address.aisle front).pallet = some k)
    (hu : u = s.posted d d.readyRetrieve)
    (hchoice : u.chooseSlot d.address.aisle k (front.bay, front.level) (some d.address.pos) = some target) :
    s.takePost d = u.relocating d s.lowestFree front target k := by
  have hpost : s.posted d { d.readyRetrieve with state := .pending } =
      u.setJob s.lowestFree { d.readyRetrieve with state := .pending } := by rw [hu, State.posted_setJob]
  have hslot : u.slot d.address.aisle front = s.slot d.address.aisle front := by
    rw [hu, State.posted_slot, hfront]
    exact State.slot_putSlot_ne s _ _ _ _ _ (slotKey_front_ne_rear _ hd)
  have hself : (u.slot d.address.aisle d.address.pos).condition = .occupied := by
    rw [hu, State.posted_slot_self]
    exact ho
  have hwaits : u.NoneWaits := by
    rw [hu]
    exact hn.posted d (Job.waits_of_state (by simp [Descriptor.readyRetrieve]))
  rw [State.takePost_retrieve hn hret hr, hpost]
  refine State.evaluate_relocating hwaits hd hfront hself (by rw [hslot, hfo]) (by rw [hslot, hfr]) (by rw [hslot, hfp])
    hchoice ?_ ?_ ?_
  · rw [hu, State.posted_freeCount]
    omega
  · rw [hu]
    exact State.posted_lowestFree_ne hrise d _
  · rw [← hpost, hu]
    exact State.posted_lowestFree s d _ _

/-! ## The replies -/

theorem State.relocating_job {u : State} {d : Descriptor} {i k : Nat} {front target : SlotPos} :
    (u.relocating d i front target k).job i = some { d.readyRetrieve with
      state := .pending, reason := some .prerequisite, link := some u.lowestFree } := State.job_setJob_self _ i _

theorem State.relocating_job_relocation {u : State} {d : Descriptor} {i k : Nat} {front target : SlotPos}
    (hne : i ≠ u.lowestFree) : (u.relocating d i front target k).job u.lowestFree =
      some (d.relocation i u.lowestFree front target k) :=
  (lookup_insertKey_ne i u.lowestFree _ _ hne.symm).trans (lookup_insertKey_self _ _ _)

theorem State.relocating_scratch (u : State) (d : Descriptor) (i k : Nat) (front target : SlotPos) :
    (u.relocating d i front target k).scratch = u.scratch := by simp [State.relocating]

theorem admitted_post {p : Phase} (h : p ≠ .loading) : admitted 0x10 p = true ∧ admitted 0x11 p = true := by
  cases p with
  | loading => exact absurd rfl h
  | running => decide
  | halted => decide

/-- A POST BATCH of one entry: the count byte and the fourteen bytes of a descriptor. -/
theorem lengthAgrees_one_entry {b : List Byte} (hlen : b.length = 14) : lengthAgrees 0x11 (1 :: b) = true := by
  have hrow : requestRow 0x11 = some ⟨0x11, 1, 14, 0, false, true, true⟩ := by decide
  rw [lengthAgrees, hrow]
  simp [hlen, byteAt]

/-- Settles O13: the RETRIEVE is taken into the lowest FREE record and evaluated, and no job waits for the change. -/
theorem postedRetrieveBecomesReady : Obligations.PostedRetrieveBecomesReady := by
  intro n b d s u hS hnp hlen hd hcheck hret ho hu
  have hcheck' : s.popRequest.checkPost (readDescriptor b 0) = none := by rw [← hd]; exact hcheck
  obtain ⟨hphase, hrange, hfree⟩ := State.checkPost_eq_none hcheck
  obtain ⟨hpost, hbatch⟩ := admitted_post hphase
  have hn : s.popRequest.NoneWaits := hnp.noneWaits
  have hu' : u = s.popRequest.posted d d.readyRetrieve := hu
  have hscratch : u.scratch = .empty := by rw [hu', State.posted_scratch]; exact hS.scratch
  have hlen10 : lengthAgrees 0x10 b = true :=
    lengthAgrees_of 0x10 b ⟨0x10, 14, 0, 0, false, true, true⟩ (by decide) rfl hlen
  refine ⟨fun hfront => ?_, fun front target k hrear hfront hfo hfr hfp hrise hchoice hturn => ?_⟩
  · have htake : s.popRequest.takePost (readDescriptor b 0) = u.tellDispatcher := by
      rw [← hd, hu']
      exact State.takePost_front hn hret hrange hfront ho
    have hjob : u.job s.lowestFree = some d.readyRetrieve := by
      rw [hu']
      exact State.posted_job s.popRequest d d.readyRetrieve
    refine ⟨fun hturn => ?_, fun hturn => ?_⟩
    · refine completes_of_accepted rfl hturn hlen10 hpost (State.servePost_ok hcheck' htake) hscratch (fun v hv => ?_)
      have hvj : v.job s.popRequest.lowestFree = some d.readyRetrieve := (hv _).trans hjob
      rw [State.putStateReason_of_job hvj, State.linkedTag_of_job hvj]
      rfl
    · have hlen11 : lengthAgrees 0x11 (1 :: b) = true := lengthAgrees_one_entry hlen
      refine completes_of_accepted rfl hturn hlen11 hbatch (State.serveBatch_one hcheck' htake ?_) hscratch (fun v _ => ?_)
      · exact ⟨congrArg Scratch.own hscratch, congrArg Scratch.collected hscratch⟩
      · have htold : u.tellDispatcher.job s.popRequest.lowestFree = some d.readyRetrieve := hjob
        rw [State.putState_of_job htold]
        rfl
  · have hne : s.lowestFree ≠ u.lowestFree := by
      rw [hu']
      exact State.posted_lowestFree_ne (s := s.popRequest) hrise d _
    have htake : s.popRequest.takePost (readDescriptor b 0) = u.relocating d s.lowestFree front target k := by
      rw [← hd]
      exact State.takePost_rear (s := s.popRequest) hn hrise hret hrange hfree hrear ho hfront hfo hfr hfp hu' hchoice
    refine completes_of_accepted rfl hturn hlen10 hpost (State.servePost_ok hcheck' htake)
      ((State.relocating_scratch ..).trans hscratch) (fun v hv => ?_)
    have hvi : v.job s.popRequest.lowestFree = _ := (hv _).trans State.relocating_job
    have hvr : v.job u.lowestFree = _ := (hv _).trans (State.relocating_job_relocation hne)
    rw [State.putStateReason_of_job hvi, State.linkedTag_of_job hvi, Option.bind_some, hvr]
    rfl

end Sys2Proof.Machine
end

section
/-! The statements on the Slot Map: SET AISLE, LOAD SLOTS, SET SLOT and store choice. -/

namespace Sys2Proof.Machine

/-! ## Requests that end their event themselves -/

/-- A request whose turn has come, admitted and of the right length, answers with what its owner made of it. -/
theorem exec_served {i : Instr} {s t : State} {r : Request} {f : State → Served} {x : Status} {body : State → List Byte}
    (he : exec i s = .next (s.hostRequest r (fun t => t.handlePlain r f))) (ht : s.hasTurn r)
    (hl : lengthAgrees r.code r.body = true) (hp : admitted r.code s.phase = true)
    (hv : f s.popRequest = ⟨x, t, body⟩) (hx : x.carriedOut = true) : exec i s = .next (t.answer r x (body t)) := by
  rw [he, State.hostRequest_plain s r f _ ht hl hp hv hx]

/-- The same of a request that its owner refuses. -/
theorem exec_refused {i : Instr} {s : State} {r : Request} {f : State → Served} {x : Status}
    (he : exec i s = .next (s.hostRequest r (fun t => t.handlePlain r f))) (ht : s.hasTurn r)
    (hl : lengthAgrees r.code r.body = true) (hp : admitted r.code s.phase = true)
    (hv : f s.popRequest = refuse s.popRequest x) (hx : x.carriedOut = false) :
    exec i s = .next (s.popRequest.answer r x []) := by
  rw [he, State.hostRequest_plainRefused s r f x ht hl hp hv hx]

/-! ## SET AISLE (R31) -/

theorem Geometry.inRange_iff (g : Geometry) : g.inRange = true ↔
    (1 ≤ g.levels ∧ g.levels ≤ 32) ∧ (1 ≤ g.bays ∧ g.bays ≤ 128) ∧ (1 ≤ g.depths ∧ g.depths ≤ 2) ∧
      g.defaultClass ≤ 15 := by
  simp only [Geometry.inRange, Bool.and_eq_true, decide_eq_true_eq, and_assoc]

theorem Geometry.levels_ne_zero_of_inRange {g : Geometry} {l b d c : Nat} (hg : g = ⟨l, b, d, c⟩)
    (hr : g.inRange = true) : l ≠ 0 := by
  obtain ⟨⟨hl, -⟩, -⟩ := g.inRange_iff.1 hr
  rw [hg] at hl
  exact Nat.ne_of_gt hl

/-- A geometry in range is taken when all aisles together stay within the Slot Map's room. -/
theorem State.serveSetAisle_inRange {s : State} {b : List Byte} {a : Fin 16} (ha : byteAt b 0 = a.val) {g : Geometry}
    (hg : g = ⟨byteAt b 1, byteAt b 2, byteAt b 3, byteAt b 4⟩) (hr : g.inRange = true) : s.serveSetAisle b =
      if Config.maxSlotRecords < s.otherSlots a + g.slots then refuse s .geometryTooLarge
      else accept (s.configureAisle a g) (fun t => t.putAisleSizes a) := by
  have hlevels : byteAt b 1 ≠ 0 := Geometry.levels_ne_zero_of_inRange hg hr
  simp only [State.serveSetAisle, readAisle_of_aisle a ha, ← hg, if_neg hlevels, hr, Bool.not_true,
    Bool.false_eq_true, if_false]

/-- Levels 0 make the aisle not configured. -/
theorem State.serveSetAisle_cleared {s : State} {b : List Byte} {a : Fin 16} (ha : byteAt b 0 = a.val)
    (hlevels : byteAt b 1 = 0) :
    s.serveSetAisle b = accept (s.unconfigureAisle a) (fun t => t.putAisleSizes a) := by
  simp only [State.serveSetAisle, readAisle_of_aisle a ha, hlevels, if_true]

/-- The sizes that the reply shows of an aisle just written. -/
theorem State.putAisleSizes_setAisle (s : State) (a : Fin 16) (r : Aisle) :
    (s.setAisle a r).putAisleSizes a = put2 r.slotCount ++ put3 (s.setAisle a r).totalSlots := by
  rw [State.putAisleSizes, State.aisle_setAisle]

/-- Settles O21: the three ways of SET AISLE past its range check, by the levels and the room left. -/
theorem setAisleBuildsTheAisle : Obligations.SetAisleBuildsTheAisle := by
  intro n b a s u hphase hlen ha hturn
  have hl : lengthAgrees 0x20 b = true :=
    lengthAgrees_of 0x20 b ⟨0x20, 5, 0, 0, true, false, false⟩ (by decide) rfl hlen
  have hp : admitted 0x20 s.phase = true := by rw [hphase]; decide
  refine ⟨fun hl1 hl2 hb1 hb2 hd1 hd2 hc => ?_, fun hlevels hu => ?_⟩
  · have hr : Geometry.inRange ⟨byteAt b 1, byteAt b 2, byteAt b 3, byteAt b 4⟩ = true :=
      (Geometry.inRange_iff _).2 ⟨⟨hl1, hl2⟩, ⟨hb1, hb2⟩, ⟨hd1, hd2⟩, hc⟩
    have hserve := State.serveSetAisle_inRange (s := s.popRequest) ha rfl hr
    refine ⟨fun hroom hu => ?_, fun hroom => ?_⟩
    · rw [hu]
      exact (exec_served rfl hturn hl hp (hserve.trans (if_neg (Nat.not_lt.2 hroom))) rfl).trans
        (by rw [State.configureAisle, State.putAisleSizes_setAisle]; rfl)
    · exact exec_refused rfl hturn hl hp (hserve.trans (if_pos hroom)) rfl
  · rw [hu]
    exact (exec_served rfl hturn hl hp (State.serveSetAisle_cleared (s := s.popRequest) ha hlevels) rfl).trans
      (by rw [State.unconfigureAisle, State.putAisleSizes_setAisle]; rfl)

/-! ## LOAD SLOTS (R50) -/

/-- One entry in range: its slot is written. -/
theorem loadEntries_one_taken {s : State} {b : List Byte} {a : Fin 16} {p : SlotPos} {v : SlotValues}
    (hp : p = (readSlotAddress (tripleAt b 2)).pos) (hv : readSlotValues b 5 = some v) (hs : s.hasSlot a p = true) :
    loadEntries a b 1 0 s = (s.putSlot a p ((s.slot a p).written v), 1) := by
  subst hp
  simp only [loadEntries, Nat.mul_zero, Nat.add_zero, hv, hs, if_true]

/-- One entry out of range: none is taken. -/
theorem loadEntries_one_refused {s : State} {b : List Byte} {a : Fin 16} {p : SlotPos}
    (hp : p = (readSlotAddress (tripleAt b 2)).pos) (h : readSlotValues b 5 = none ∨ s.hasSlot a p = false) :
    loadEntries a b 1 0 s = (s, 0) := by
  subst hp
  cases hv : readSlotValues b 5 with
  | none => simp only [loadEntries, Nat.mul_zero, Nat.add_zero, hv]
  | some v =>
    have hs := h.resolve_left (by simp [hv])
    simp only [loadEntries, Nat.mul_zero, Nat.add_zero, hv, hs, Bool.false_eq_true, if_false]

/-- A load of one entry for a configured aisle at its owner. -/
theorem State.serveLoadSlots_one {s : State} {b : List Byte} {a : Fin 16} (ha : byteAt b 0 = a.val)
    (hcount : byteAt b 1 = 1) (hg : (s.aisle a).geometry.isSome = true) : s.serveLoadSlots b =
      if (loadEntries a b 1 0 s).2 = 1 then accept (loadEntries a b 1 0 s).1 (fun _ => [])
      else ⟨.partly, (loadEntries a b 1 0 s).1,
        fun _ => put1 (loadEntries a b 1 0 s).2 ++ put1 (statusCode .badField)⟩ := by
  have hconf : (s.aisle a).geometry.isNone = false := Option.isNone_eq_false_iff.2 hg
  simp [State.serveLoadSlots, readAisle_of_aisle a ha, hcount, hconf]

/-- Settles O22: the one entry is taken or refused, and the reply's status follows it. -/
theorem loadSlotsWritesTheEntry : Obligations.LoadSlotsWritesTheEntry := by
  intro n b a p s hphase hlen ha hcount hpos hg hturn
  have hl : lengthAgrees 0x21 b = true := by
    have hrow : requestRow 0x21 = some ⟨0x21, 2, 6, 1, true, false, false⟩ := by decide
    rw [lengthAgrees, hrow]
    simp [hlen, hcount]
  have hp : admitted 0x21 s.phase = true := by rw [hphase]; decide
  have hserve := State.serveLoadSlots_one (s := s.popRequest) ha hcount hg
  refine ⟨fun v hv hs => ?_, fun h => ?_⟩
  · rw [loadEntries_one_taken (s := s.popRequest) hpos hv hs] at hserve
    exact exec_served rfl hturn hl hp hserve rfl
  · rw [loadEntries_one_refused (s := s.popRequest) hpos h] at hserve
    exact exec_served rfl hturn hl hp hserve rfl

/-! ## SET SLOT (R51, R52) -/

/-- What the end of an event evaluates may be evaluated before it. -/
theorem State.finish_of_settleEvaluations {s t : State} (b : State) (h : s.settleEvaluations = t) (hq : t.Quiet) :
    s.finish b = t.finish b := by
  rw [State.finish_eq, State.finish_eq, h, State.settleEvaluations_quiet t hq]

/-- A request that its owner accepts, leaving a state from which the evaluations of the event make `t`, completes with `t`
and its reply, when the reply's body does not read what the rest of the event's end may change. -/
theorem completes_of_evaluated {i : Instr} {s w t : State} {r : Request} {f : State → Served} {body : State → List Byte}
    (he : exec i s = .next (s.hostRequest r (fun t => t.handle r f))) (ht : s.hasTurn r)
    (hl : lengthAgrees r.code r.body = true) (hp : admitted r.code s.phase = true)
    (hv : f s.popRequest = accept w body) (hw : w.settleEvaluations = t) (hs : t.scratch = .empty)
    (hb : ∀ u v : State, u.bare = v.bare → body u = body v) : Completes i s (t.answer r .ok (body t)) := by
  have hq : t.Quiet := ⟨congrArg Scratch.own hs, congrArg Scratch.collected hs⟩
  have hsame : s.hostRequest r (fun t => t.handle r f) =
      s.hostRequest r (fun t' => t'.handle r (fun _ => accept t body)) := by
    rw [State.hostRequest_of_turn _ _ _ ht, State.hostRequest_of_turn _ _ _ ht,
      State.handle_ok s.popRequest r f _ hl hp hv rfl, State.handle_ok s.popRequest r _ (accept t body) hl hp rfl rfl]
    exact congrArg (fun v : State => v.answer r .ok (body v)) (State.finish_of_settleEvaluations s.popRequest hw hq)
  exact completes_of_handle i s _ r _ _ _ (he.trans (congrArg _ hsame)) ht hl hp rfl rfl hq
    (body_of_bare body hb t s.popRequest hq) rfl (State.Grows.refl t)

/-- A slot record's layout reads nothing that the end of an event may change. -/
theorem State.putSlotRecord_of_bare (a : Fin 16) (p : SlotPos) (s t : State) (h : s.bare = t.bare) :
    s.putSlotRecord a p = t.putSlotRecord a p := by
  show s.bare.putSlotRecord a p = t.bare.putSlotRecord a p
  rw [h]

theorem State.geometry_isSome_of_hasSlot {s : State} {a : Fin 16} {p : SlotPos} (h : s.hasSlot a p = true) :
    (s.aisle a).geometry.isSome = true := by
  cases hg : (s.aisle a).geometry with
  | none => simp [State.hasSlot, hg] at h
  | some g => rfl

/-- SET SLOT that passes steps 5 to 7 of R51 completes with what the evaluations make of the record written. -/
theorem completes_setSlot {n : Byte} {b : List Byte} {x : SlotAddress} {v : SlotValues} {s t : State}
    (hphase : s.phase ≠ .loading) (hlen : b.length = 6) (hx : x = readSlotAddress (tripleAt b 0))
    (hv : readSlotValues b 3 = some v) (hslot : s.hasSlot x.aisle x.pos = true)
    (hmay : s.mayBeSet (s.slot x.aisle x.pos) = true) (hrear : s.rearAtRest x.aisle x.pos = true)
    (hsuit : s.valuesSuit (s.slot x.aisle x.pos) v = true) (hturn : s.hasTurn ⟨0x22, n, b⟩)
    (ht : (s.popRequest.changeSlot x.aisle x.pos true ((s.slot x.aisle x.pos).written v)).settleEvaluations = t)
    (hs : t.scratch = .empty) {body : List Byte} (hbody : t.putSlotRecord x.aisle x.pos = body) :
    Completes (.setSlot n b) s (t.answer ⟨0x22, n, b⟩ .ok body) := by
  subst hbody
  have hl : lengthAgrees 0x22 b = true :=
    lengthAgrees_of 0x22 b ⟨0x22, 6, 0, 0, false, true, true⟩ (by decide) rfl hlen
  have hp : admitted 0x22 s.phase = true := by
    cases h : s.phase with
    | loading => exact absurd h hphase
    | running => decide
    | halted => decide
  have hchecks : firstFailing
      [ ((s.popRequest.aisle x.aisle).geometry.isSome, .noSuchAisle)
      , (s.popRequest.hasSlot x.aisle x.pos, .badField)
      , (s.popRequest.mayBeSet (s.popRequest.slot x.aisle x.pos), .slotReserved)
      , (s.popRequest.rearAtRest x.aisle x.pos, .slotReserved)
      , (s.popRequest.valuesSuit (s.popRequest.slot x.aisle x.pos) v, .slotConflict) ] = none := by
    rw [firstFailing_eq_none]
    simp only [List.mem_cons, List.not_mem_nil, or_false, forall_eq_or_imp, forall_eq]
    exact ⟨State.geometry_isSome_of_hasSlot hslot, hslot, hmay, hrear, hsuit⟩
  have hserve : s.popRequest.serveSetSlot b = accept
      (s.popRequest.changeSlot x.aisle x.pos true ((s.slot x.aisle x.pos).written v))
      (fun t => t.putSlotRecord x.aisle x.pos) := by
    subst hx
    simp only [State.serveSetSlot, hv, hchecks]
    rfl
  exact completes_of_evaluated (f := State.serveSetSlot b) rfl hturn hl hp hserve ht hs
    (State.putSlotRecord_of_bare x.aisle x.pos)

/-! ## One job collected (R43, R44) -/

/-- When one record alone of a rising list meets a condition, the condition selects that record. -/
theorem filter_eq_singleton {α : Type} {i : Nat} {v : α} {l : List (Nat × α)} {p : Nat × α → Bool}
    (hr : rising l = true) (hv : lookup i l = some v) (hp : p (i, v) = true)
    (h : ∀ e ∈ l, p e = true → e.1 = i) : l.filter p = [(i, v)] := by
  induction l with
  | nil => cases hv
  | cons e rest ih =>
    obtain ⟨k, w⟩ := e
    obtain ⟨habove, hrest⟩ := (rising_cons _ _).1 hr
    by_cases hk : i = k
    · subst hk
      obtain rfl : w = v := by simpa [lookup] using hv
      have hnone : rest.filter p = [] := List.filter_eq_nil_iff.2 fun e he hpe => by
        have hlt : i < e.1 := habove e he
        have heq : e.1 = i := h e (List.mem_cons_of_mem _ he) hpe
        omega
      rw [List.filter_cons_of_pos hp, hnone]
    · have hfirst : ¬ p (k, w) = true := fun hpk => hk (h (k, w) List.mem_cons_self hpk).symm
      rw [List.filter_cons_of_neg hfirst]
      exact ih hrest (by simpa [lookup, hk] using hv) (fun e he => h e (List.mem_cons_of_mem _ he))

theorem State.jobsWhere_eq_singleton {s : State} {i : Nat} {j : Job} {p : Job → Bool} (hr : rising s.jobs = true)
    (hj : s.job i = some j) (hp : p j = true) (h : ∀ e ∈ s.jobs, p e.2 = true → e.1 = i) : s.jobsWhere p = [i] := by
  rw [State.jobsWhere, filter_eq_singleton (p := fun e => p e.2) hr hj hp h, List.map_singleton]

/-- The order of R44 of one job. -/
theorem State.ageOrder_singleton {s : State} {i : Nat} {j : Job} (hr : rising s.jobs = true) (hj : s.job i = some j) :
    s.ageOrder [i] = [i] := by
  have hone : s.jobs.filter (fun e => [i].contains e.1) = [(i, j)] :=
    filter_eq_singleton hr hj (by simp) (fun e _ he => by simpa using he)
  simp only [State.ageOrder, hone]
  rfl

/-- Without a dependent noted, the evaluations are those of the collected jobs (R44). -/
theorem State.settleEvaluations_of_noOwn {s : State} (h : s.scratch.own = []) :
    s.settleEvaluations =
      let t := (s.ageOrder s.scratch.collected).foldl State.evaluatePending s
      { t with scratch := { t.scratch with own := [], collected := [] } } := by
  have hclear : ({ s with scratch := { s.scratch with own := [] } } : State) = s := by rw [← h]
  simp only [State.settleEvaluations, h, List.foldl_nil, hclear]

/-- A PENDING job that alone has been collected is evaluated once (R44). -/
theorem State.settleEvaluations_collected {s t : State} {i : Nat} {j : Job} (hs : s.scratch = .empty)
    (hr : rising s.jobs = true) (hj : s.job i = some j) (hp : j.state = .pending)
    (he : (s.collect [i]).evaluate i = t.collect [i]) (ht : t.scratch = .empty) :
    (s.collect [i]).settleEvaluations = t := by
  have hown : (s.collect [i]).scratch.own = [] := congrArg Scratch.own hs
  have hcoll : (s.collect [i]).scratch.collected = [i] := congrArg (fun x => Scratch.collected x ++ [i]) hs
  have hj' : (s.collect [i]).job i = some j := hj
  have horder : (s.collect [i]).ageOrder [i] = [i] := State.ageOrder_singleton (s := s.collect [i]) hr hj
  have heval : (s.collect [i]).evaluatePending i = t.collect [i] := by
    simp only [State.evaluatePending, hj', hp, if_true, he]
  rw [State.settleEvaluations_of_noOwn hown, hcoll, horder, List.foldl_cons, List.foldl_nil, heval]
  have hempty : ({ t.scratch with own := [], collected := [] } : Scratch) = t.scratch := by rw [ht]; rfl
  exact congrArg (fun x => { t with scratch := x }) hempty

/-- A change by SET SLOT at the location on which one job waits SLOT_BLOCKED, alone in PENDING, collects that job
(R43). -/
theorem State.changeSlot_of_oneBlocked {s : State} {i : Nat} {j : Job} {a : Fin 16} {p : SlotPos}
    (hr : rising s.jobs = true) (hone : ∀ e ∈ s.jobs, e.2.state = .pending → e.1 = i) (hj : s.job i = some j)
    (hst : j.state = .pending) (hre : j.reason = some .slotBlocked) (ha : j.aisle = a) (hp : j.slot = some p)
    (r : Slot) : s.changeSlot a p true r = (s.putSlot a p r).collect [i] := by
  have hloc : (s.putSlot a p r).waitingAtLocation a p = [i] :=
    State.jobsWhere_eq_singleton (s := s.putSlot a p r) hr hj
      (by simp [hst, hre, ha, hp, SlotPos.sameLocation])
      (fun e he hw => hone e he (by simp only [Bool.and_eq_true, beq_iff_eq] at hw; exact hw.1.1.1))
  have hroom : ((s.putSlot a p r).collect [i]).waitingForRoom a = [] := by
    have hnone : s.jobs.filter (fun e => e.2.state == .pending && e.2.aisle == a && e.2.reason == some .noRoom) = [] :=
      List.filter_eq_nil_iff.2 fun e he hw => by
        simp only [Bool.and_eq_true, beq_iff_eq] at hw
        obtain ⟨⟨hpending, -⟩, hreason⟩ := hw
        have hv := lookup_of_mem e.1 e.2 s.jobs hr he
        rw [hone e he hpending, show lookup i s.jobs = some j from hj, Option.some.injEq] at hv
        rw [← hv, hre] at hreason
        cases hreason
    exact congrArg (List.map Prod.fst) hnone
  simp only [State.changeSlot, Bool.true_or, if_true, hloc, hroom, State.collect_nil, ite_self]

/-- A RETRIEVE that waits SLOT_BLOCKED on a FRONT slot, alone in PENDING, enters READY once the slot has been set
OCCUPIED (R41, R43, R44). -/
theorem State.settle_changeSlot_oneBlocked {s : State} (hs : s.scratch = .empty) {i : Nat} {j : Job} {a : Fin 16}
    {p : SlotPos} (hr : rising s.jobs = true) (hone : ∀ e ∈ s.jobs, e.2.state = .pending → e.1 = i)
    (hj : s.job i = some j) (hk : j.kind = .retrieve) (hst : j.state = .pending) (hre : j.reason = some .slotBlocked)
    (ha : j.aisle = a) (hp : j.slot = some p) (hd : p.depth = .front) (hw : j.withdrawRequested = false) {r : Slot}
    (ho : r.condition = .occupied) :
    (s.changeSlot a p true r).settleEvaluations = ((s.putSlot a p r).setJob i { j with
      state := .ready, reason := none, assignment := none }).tellDispatcher := by
  have hj' : ((s.putSlot a p r).collect [i]).job i = some j := hj
  have ho' : (((s.putSlot a p r).collect [i]).slot j.aisle p).condition = .occupied := by
    have hself : ((s.putSlot a p r).collect [i]).slot j.aisle p = r := by
      rw [ha]
      exact State.slot_putSlot_self s a p r
    rw [hself, ho]
  rw [State.changeSlot_of_oneBlocked hr hone hj hst hre ha hp]
  refine State.settleEvaluations_collected (s := s.putSlot a p r) hs hr hj hst ?_ hs
  rw [State.evaluate_retrieve_front hj' hk hp hd ho', State.enterReady_of_kept hj' hw (by simp [hk])]
  rfl

/-- The layout of a record without reservation and with the unverified mark clear. -/
theorem State.putSlotRecord_plain {s : State} {a : Fin 16} {p : SlotPos} {c : Condition} {k : Nat} {l : Option Nat}
    (h : s.slot a p = ⟨c, k, l, none, false⟩) : s.putSlotRecord a p =
      put1 (conditionCode c) ++ put1 k ++ putOption 1 put1 l ++ [0, 0, 0, 0, 0, 0, 0, 0, 0] := by
  simp only [State.putSlotRecord, h, List.append_assoc]
  rfl

/-- The layout of a record reserved by a job, with the unverified mark clear. -/
theorem State.putSlotRecord_reserved {s : State} {a : Fin 16} {p : SlotPos} {c : Condition} {k i tag : Nat}
    {l : Option Nat} {x : ResKind} {j : Job} (h : s.slot a p = ⟨c, k, l, some ⟨x, i⟩, false⟩) (hj : s.job i = some j)
    (htag : j.tag = tag) :
    s.putSlotRecord a p = put1 (conditionCode c) ++ put1 k ++ putOption 1 put1 l ++ [1] ++ put1 (resKindCode x) ++
      put2 i ++ put4 tag ++ [0] := by
  simp only [State.putSlotRecord, h, putOption, State.putReservation, hj, htag, List.append_assoc]
  rfl

/-- Settles O23: without a PENDING job the change collects none; the one RETRIEVE that waits on the slot is evaluated. -/
theorem setSlotWritesTheRecord : Obligations.SetSlotWritesTheRecord := by
  intro n b x v s hS hphase hlen hx hv hslot hrear hturn
  refine ⟨fun hnp hres => ?_, fun i j hrise hone hd hres hj hk hst hre ha hp hw ho => ?_⟩
  · have hwritten : (s.slot x.aisle x.pos).written v = ⟨v.condition, v.slotClass, v.pallet, none, false⟩ := by
      simp only [Slot.written, hres]
    have hn : s.popRequest.NoneWaits := hnp.noneWaits
    refine completes_setSlot hphase hlen hx hv hslot (by simp only [State.mayBeSet, hres]) hrear
      (by simp only [State.valuesSuit, hres]) hturn ?_ ?_
      (State.putSlotRecord_plain (State.slot_putSlot_self s.popRequest x.aisle x.pos _))
    · rw [hwritten, State.changeSlot_of_noneWaits hn]
      exact State.settleEvaluations_quiet _ ⟨congrArg Scratch.own hS.scratch, congrArg Scratch.collected hS.scratch⟩
    · exact hS.scratch
  · have hwritten : (s.slot x.aisle x.pos).written v = ⟨.occupied, v.slotClass, v.pallet, some ⟨.outOf, i⟩, false⟩ := by
      simp only [Slot.written, hres, ho]
    have hheld : s.mayBeSet (s.slot x.aisle x.pos) = true := by
      simp [State.mayBeSet, hres, State.blockedHolder, hj, hst, hre]
    refine completes_setSlot hphase hlen hx hv hslot hheld hrear (by simp [State.valuesSuit, hres, ho]) hturn ?_
      ?_ (State.putSlotRecord_reserved (c := .occupied) ?_ (State.job_setJob_self _ i _) rfl)
    · rw [hwritten]
      exact State.settle_changeSlot_oneBlocked (s := s.popRequest) hS.scratch hrise hone hj hk hst hre ha hp hd hw rfl
    · exact hS.scratch
    · rw [State.slot_tellDispatcher, State.slot_setJob, State.slot_putSlot_self]

/-! ## Store choice (R40) -/

theorem firstLeast_eq_none {α : Type} {f : α → Nat} {l : List α} (h : firstLeast f l = none) : l = [] := by
  cases l with
  | nil => rfl
  | cons x xs =>
    simp only [firstLeast] at h
    split at h
    · cases h
    · split at h <;> cases h

theorem firstLeast_le {α : Type} {f : α → Nat} {l : List α} {x : α} (h : firstLeast f l = some x) :
    ∀ y ∈ l, f x ≤ f y := by
  induction l generalizing x with
  | nil => cases h
  | cons z zs ih =>
    cases hzs : firstLeast f zs with
    | none =>
      obtain rfl := firstLeast_eq_none hzs
      obtain rfl : z = x := by simpa [firstLeast] using h
      simp
    | some w =>
      have hw := ih hzs
      simp only [firstLeast, hzs] at h
      by_cases hle : f z ≤ f w
      · obtain rfl : z = x := by simpa [hle] using h
        exact List.forall_mem_cons.2 ⟨Nat.le_refl _, fun y hy => Nat.le_trans hle (hw y hy)⟩
      · obtain rfl : w = x := by simpa [hle] using h
        exact List.forall_mem_cons.2 ⟨by omega, hw⟩

/-- The access time from the corner in which the numbering of bays and levels begins. -/
theorem accessTime_from_origin (timing : Nat × Nat) (p : SlotPos) :
    accessTime timing (0, 0) p = max (p.bay * timing.1) (p.level * timing.2) := by
  simp [accessTime, apart]

/-- Store choice with no location left out takes the nearest of the aisle's candidates. -/
theorem State.chooseSlot_of_geometry {s : State} {a : Fin 16} {g : Geometry} (h : (s.aisle a).geometry = some g)
    (c : Nat) (start : Nat × Nat) : s.chooseSlot a c start none =
      firstLeast (accessTime s.choiceTiming start) ((slotsInTieOrder g).filter (s.choiceCandidate a c)) := by
  simp only [State.chooseSlot, h, Bool.and_true]

/-- Settles O24: the choice is the first of the least of the candidates, and is missing only when they are. -/
theorem storeChoiceIsTheNearestCandidate : Obligations.StoreChoiceIsTheNearestCandidate := by
  intro s a c g hg
  rw [State.chooseSlot_of_geometry hg]
  refine ⟨fun p hp => ?_, fun hnone q hq => ?_⟩
  · obtain ⟨hmem, hcand⟩ := List.mem_filter.1 (firstLeast_mem _ _ _ hp)
    refine ⟨hmem, hcand, fun q hq hqc => ?_⟩
    have hle := firstLeast_le hp q (List.mem_filter.2 ⟨hq, hqc⟩)
    rwa [accessTime_from_origin, accessTime_from_origin] at hle
  · have hall := List.filter_eq_nil_iff.1 (firstLeast_eq_none hnone) q hq
    simpa using hall

end Sys2Proof.Machine
end

section
/-! The statements on one step of the queue, and on the requests SET HOLD FILTER, SET WEIGHTS and QUERY DISPATCH. -/

namespace Sys2Proof.Machine

/-- Settles O1: the front command is taken off the queue and run. -/
theorem stepRunsTheFrontCommand : Obligations.StepRunsTheFrontCommand := by
  intro c rest s hs
  simp only [step, hs]

/-! ## SET HOLD FILTER and SET WEIGHTS (R59, R76) -/

theorem readFlag_toNat {n : Nat} {e : Bool} (h : n = e.toNat) : readFlag n = some e := by
  cases e <;> rw [h] <;> rfl

theorem State.serveSetFilter_of_entry {s : State} {b : List Byte} {k : Fin 8} {e : Bool} (hk : byteAt b 0 = k.val)
    (he : byteAt b 1 = e.toNat) : s.serveSetFilter b =
      accept (s.setFilter k ⟨e, BitVec.ofNat 16 (wordAt b 2), BitVec.ofNat 16 (wordAt b 4)⟩).tellDispatcher (fun _ =>
        putFilter k.val ⟨e, BitVec.ofNat 16 (wordAt b 2), BitVec.ofNat 16 (wordAt b 4)⟩) := by
  have hrange : ¬ 7 < k.val := by omega
  simp only [State.serveSetFilter, readFlag_toNat he, hk, if_neg hrange, Fin.ofNat_val_eq_self]

theorem State.serveSetWeights_of_flag {s : State} {b : List Byte} {e : Bool} (he : byteAt b 8 = e.toNat) :
    s.serveSetWeights b = accept { s with disp := { s.disp with weights := readWeights b e } }
      (fun _ => putFlag (weightsClamped b) ++ (readWeights b e).put) := by
  simp only [State.serveSetWeights, readFlag_toNat he]

theorem byteAt_lt (b : List Byte) (i : Nat) : byteAt b i < 256 := ((b.drop i).headD 0).isLt

/-- A two-byte number of a body fits a register of 16 bits. -/
theorem wordAt_lt (b : List Byte) (i : Nat) : wordAt b i < 65536 := by
  have h1 := byteAt_lt b i
  have h2 := byteAt_lt b (i + 1)
  unfold wordAt
  omega

@[simp] theorem toNat_ofNat_wordAt (b : List Byte) (i : Nat) : (BitVec.ofNat 16 (wordAt b i)).toNat = wordAt b i :=
  Nat.mod_eq_of_lt (wordAt_lt b i)

/-- Settles O25: both requests are admitted in every phase and end their event themselves. -/
theorem dispatchSettingsAreWritten : Obligations.DispatchSettingsAreWritten := by
  intro n b s
  refine ⟨fun k e hlen hk he hturn => ?_, fun e hlen he hturn => ?_⟩
  · have hrow : requestRow 0x30 = some (everyPhase 0x30 6) := by decide
    have hexec := exec_served (i := .setHoldFilter n b) rfl hturn (lengthAgrees_everyPhase hrow hlen)
      (admitted_everyPhase s.phase hrow) (State.serveSetFilter_of_entry (s := s.popRequest) hk he) rfl
    simpa only [putFilter, toNat_ofNat_wordAt] using hexec
  · have hrow : requestRow 0x31 = some (everyPhase 0x31 9) := by decide
    have hexec := exec_served (i := .setWeights n b) rfl hturn (lengthAgrees_everyPhase hrow hlen)
      (admitted_everyPhase s.phase hrow) (State.serveSetWeights_of_flag (s := s.popRequest) he) rfl
    rw [hexec]
    simp only [Weights.put, readWeights, weightsClamped, ← List.append_assoc]
    rfl

/-! ## QUERY DISPATCH (R77) -/

theorem putFilters_ofFn (n m : Nat) (f : Fin m → HoldFilter) :
    putFilters n (List.ofFn f) = (List.finRange m).flatMap (fun k => putFilter (n + k.val) (f k)) := by
  induction m generalizing n with
  | zero => rfl
  | succ m ih =>
    simp only [List.ofFn_succ, putFilters, ih, List.finRange_succ, List.flatMap_cons, List.flatMap_map, Fin.val_zero,
      Fin.val_succ, Nat.add_zero, Nat.add_assoc, Nat.add_comm 1]

theorem Dispatcher.filters_toList (d : Dispatcher) : d.filters.toList = List.ofFn d.filters.get := by
  refine List.ext_getElem (by simp) fun i _ _ => ?_
  rw [List.getElem_ofFn, Vector.getElem_toList, Vector.get_eq_getElem]

/-- Settles O26: the entries stand in the reply in rising number. -/
theorem queryDispatchReportsAndChangesNothing : Obligations.QueryDispatchReportsAndChangesNothing := by
  intro n s hturn
  have hrow : requestRow 0x32 = some (everyPhase 0x32 0) := by decide
  have hexec := exec_query (i := .queryDispatch n []) (s := s) rfl hrow rfl hturn rfl
  rw [hexec, Dispatcher.put, Dispatcher.filters_toList, putFilters_ofFn]
  simp only [Nat.zero_add]
  rfl

end Sys2Proof.Machine
end

section
/-! The statements on pricing and on the order of candidates. -/

namespace Sys2Proof.Machine

/-! ## Per-pallet times (R66) -/

/-- Settles O27: half of an odd trip time is rounded up. -/
theorem perPalletTime : Obligations.PerPalletTime := by
  intro t
  refine ⟨rfl, (t + 1) / 2, ?_, rfl⟩
  omega

/-! ## Scores (R67, R68) -/

/-- The credits of a job's own fields are bounded by R67's ceiling of age and the ranges of weights and priority. -/
theorem State.ownCredits_le {s : State} {j : Job} (hwp : s.disp.weights.wp ≤ 8191) (hwh : s.disp.weights.wh ≤ 65535)
    (hp : j.priority ≤ 7) : s.ownCredits j ≤ 152872 := by
  have hage : min Config.ageCreditCeiling (j.age * s.disp.weights.wa) ≤ 30000 := Nat.min_le_left _ _
  have hpriority : j.priority * s.disp.weights.wp ≤ 7 * 8191 := Nat.mul_le_mul hp hwp
  show _ ≤ 30000 + 7 * 8191 + 65535
  refine Nat.add_le_add (Nat.add_le_add hage hpriority) ?_
  split
  · split <;> omega
  · omega

/-- A job's credits are its own, or those of the record that its link names. -/
theorem State.credits_cases (s : State) (j : Job) :
    s.credits j = s.ownCredits j ∨ ∃ d k, s.job d = some k ∧ s.credits j = s.ownCredits k := by
  unfold State.credits
  split
  · next d _ _ =>
    cases hk : s.job d with
    | none => exact .inl rfl
    | some k => exact .inr ⟨d, k, hk, rfl⟩
  · exact .inl rfl

theorem State.priority_le_of_job {s : State} (h : ∀ e ∈ s.jobs, e.2.priority ≤ 7) {i : Nat} {j : Job}
    (hj : s.job i = some j) : j.priority ≤ 7 := h (i, j) (mem_of_lookup i j s.jobs hj)

theorem State.credits_le {s : State} (hwp : s.disp.weights.wp ≤ 8191) (hwh : s.disp.weights.wh ≤ 65535)
    (h : ∀ e ∈ s.jobs, e.2.priority ≤ 7) {j : Job} (hp : j.priority ≤ 7) : s.credits j ≤ 152872 := by
  rcases s.credits_cases j with hown | ⟨d, k, hk, hlinked⟩
  · rw [hown]; exact State.ownCredits_le hwp hwh hp
  · rw [hlinked]; exact State.ownCredits_le hwp hwh (State.priority_le_of_job h hk)

/-- A single candidate is scored as R68 says. -/
theorem State.singleCandidate_score {s : State} {c : Fin 8} {e : Nat × Job} {x : Candidate}
    (h : s.singleCandidate c e = some x) : ∃ t, x.score = (singlePrice t : Int) - s.credits e.2 := by
  simp only [State.singleCandidate] at h
  split at h
  · split at h
    · next t _ => exact ⟨t, by rw [← Option.some.inj h]⟩
    · cases h
  · cases h

/-- A dual candidate is scored as R68 says, from two records. -/
theorem State.dualCandidate_score {s : State} {c : Fin 8} {x y z : Candidate} (h : s.dualCandidate c x y = some z) :
    ∃ j k t, s.job x.low = some j ∧ s.job y.low = some k ∧
      z.score = (dualPrice t : Int) - max (s.credits j) (s.credits k) := by
  simp only [State.dualCandidate] at h
  split at h
  · next j k hj hk =>
    split at h
    · exact ⟨j, k, _, hj, hk, by rw [← Option.some.inj h]⟩
    · cases h
  · cases h

/-- A candidate of a round is a record's single candidate, or a dual one of two single candidates. -/
theorem State.mem_candidates {s : State} {x : Candidate} (h : x ∈ s.candidates) :
    (∃ c, ∃ e ∈ s.jobs, s.singleCandidate c e = some x) ∨ ∃ c y z, s.dualCandidate c y z = some x := by
  obtain ⟨c, -, hc⟩ := List.mem_flatMap.1 h
  split at hc
  · rcases List.mem_append.1 hc with hsingle | hdual
    · exact .inl ⟨c, List.mem_filterMap.1 hsingle⟩
    · unfold State.duals at hdual
      split at hdual
      · obtain ⟨a, -, ha⟩ := List.mem_flatMap.1 hdual
        obtain ⟨y, -, hy⟩ := List.mem_flatMap.1 ha
        obtain ⟨z, -, hz⟩ := List.mem_filterMap.1 hy
        exact .inr ⟨c, y, z, hz⟩
      · cases hdual
  · cases hc

/-- Settles O28: a priced time of 0 to 999,999 less credits of at most 30,000 + 7 · 8,191 + 65,535. -/
theorem scoresLieWithinTheLimits : Obligations.ScoresLieWithinTheLimits := by
  intro s x hwp hwh hprio hx
  rcases State.mem_candidates hx with ⟨c, e, he, hsingle⟩ | ⟨c, y, z, hdual⟩
  · obtain ⟨t, hscore⟩ := State.singleCandidate_score hsingle
    have hprice : singlePrice t ≤ 999999 := Nat.min_le_left _ _
    have hcredits := State.credits_le hwp hwh hprio (hprio e he)
    omega
  · obtain ⟨j, k, t, hj, hk, hscore⟩ := State.dualCandidate_score hdual
    have hprice : dualPrice t ≤ 999999 := Nat.min_le_left _ _
    have hcj := State.credits_le hwp hwh hprio (State.priority_le_of_job hprio hj)
    have hck := State.credits_le hwp hwh hprio (State.priority_le_of_job hprio hk)
    omega

/-! ## The order of candidates (R72) -/

/-- What R72 compares, in its order: as lexicographic tuples, the candidate that comes first is the least. -/
def Candidate.rank (x : Candidate) : ℤ ×ₗ ℕᵒᵈ ×ₗ ℕ ×ₗ ℕ ×ₗ Fin 8 ×ₗ ℕ :=
  toLex (x.score, toLex (OrderDual.toDual x.age, toLex (x.low, toLex (x.legs.length, toLex (x.crane, x.high)))))

/-- One stage of R72: the first difference decides, and otherwise what comes after it. -/
theorem firstDifference_iff {α : Type} [Preorder α] (a b : α) (r : Bool) [Decidable (a ≠ b)] [Decidable (a < b)] :
    (if a ≠ b then decide (a < b) else r) = true ↔ a < b ∨ a = b ∧ r = true := by
  by_cases h : a = b
  · simp [h]
  · simp [h]

theorem Candidate.better_iff (x y : Candidate) : x.better y = true ↔
    x.score < y.score ∨ x.score = y.score ∧ (y.age < x.age ∨ y.age = x.age ∧
      (x.low < y.low ∨ x.low = y.low ∧ (x.legs.length < y.legs.length ∨ x.legs.length = y.legs.length ∧
        (x.crane < y.crane ∨ x.crane = y.crane ∧ x.high < y.high)))) := by
  simp only [Candidate.better, ne_comm (a := x.age), firstDifference_iff, decide_eq_true_eq]

theorem Candidate.better_iff_rank_lt (x y : Candidate) : x.better y = true ↔ x.rank < y.rank := by
  simp only [Candidate.better_iff, Candidate.rank, Prod.Lex.toLex_lt_toLex, OrderDual.toDual_lt_toDual,
    OrderDual.toDual_inj, eq_comm (a := y.age)]

theorem Candidate.better_eq_false_iff (x y : Candidate) : x.better y = false ↔ y.rank ≤ x.rank := by
  rw [← not_lt, ← Candidate.better_iff_rank_lt, Bool.not_eq_true]

theorem bestCandidate_eq_none {l : List Candidate} (h : bestCandidate l = none) : l = [] := by
  cases l with
  | nil => rfl
  | cons x xs =>
    simp only [bestCandidate] at h
    split at h
    · cases h
    · split at h <;> cases h

/-- The best candidate is one of the round's, and no rank lies below its own. -/
theorem bestCandidate_least {l : List Candidate} {x : Candidate} (h : bestCandidate l = some x) :
    x ∈ l ∧ ∀ y ∈ l, x.rank ≤ y.rank := by
  induction l generalizing x with
  | nil => cases h
  | cons z zs ih =>
    cases hzs : bestCandidate zs with
    | none =>
      obtain rfl := bestCandidate_eq_none hzs
      obtain rfl : z = x := by simpa [bestCandidate] using h
      simp
    | some w =>
      obtain ⟨hmem, hleast⟩ := ih hzs
      simp only [bestCandidate, hzs] at h
      cases hb : w.better z with
      | true =>
        obtain rfl : w = x := by simpa [hb] using h
        exact ⟨List.mem_cons_of_mem _ hmem,
          List.forall_mem_cons.2 ⟨((Candidate.better_iff_rank_lt _ _).1 hb).le, hleast⟩⟩
      | false =>
        obtain rfl : z = x := by simpa [hb] using h
        have hle := (Candidate.better_eq_false_iff _ _).1 hb
        exact ⟨List.mem_cons_self, List.forall_mem_cons.2 ⟨le_rfl, fun y hy => hle.trans (hleast y hy)⟩⟩

/-- Settles O29: the order of R72 is the lexicographic order of ranks. -/
theorem roundTakesTheBestCandidate : Obligations.RoundTakesTheBestCandidate := by
  refine ⟨fun l x h => ?_, Candidate.better_iff⟩
  obtain ⟨hmem, hleast⟩ := bestCandidate_least h
  exact ⟨hmem, fun y hy => (Candidate.better_eq_false_iff y x).2 (hleast y hy)⟩

end Sys2Proof.Machine
end

section
/-! The statement on the HOLD input, and what an event comes to that writes the Dispatcher alone. -/

namespace Sys2Proof.Machine

/-! ## Events that write the Dispatcher -/

/-- An event that writes the Dispatcher and the port alone, without clearing the held flag, ends with the conditions taken
afresh: it makes no crane eligible (R55). -/
theorem State.event_writesDispatcher {s : State} {f : State → State} {d : Dispatcher} {h : HostPort}
    (hs : s.scratch = .empty) (hf : f s = { s with disp := d, host := h })
    (hheld : s.disp.held = true → d.held = true) :
    s.event f = ({ s with disp := d, host := h } : State).takeConditions := by
  refine State.event_plain s { s with disp := d, host := h } f ?_ ?_ ?_ fun c n => ?_
  · rw [hf]; exact ⟨congrArg Scratch.own hs, congrArg Scratch.collected hs⟩
  · rw [hf]; exact congrArg Scratch.inputs hs
  · rw [hf]; exact State.scratch_cleared { s with disp := d, host := h } hs
  · exact State.inputHolds_mono { s with disp := d, host := h } s c n id
      (State.eligible_mono { s with disp := d, host := h } s c rfl rfl rfl rfl hheld fun _ => id) id id

/-- When it writes the Dispatcher alone, nothing else of a settled state changes. -/
theorem State.event_writesDispatcherAlone {s : State} {f : State → State} {d : Dispatcher} (hs : s.Settled)
    (hf : f s = { s with disp := d }) (hheld : s.disp.held = true → d.held = true) :
    s.event f = { s with disp := d } := by
  rw [State.event_writesDispatcher hs.scratch hf hheld]
  exact State.takeConditions_fresh { s with disp := d } hs.conditions hs.attention

/-- An event that gathers nothing completes with the state it makes, the Dispatcher exactly as it left it. -/
theorem completes_of_nothingGathered {i : Instr} {s u : State} {f : State → State}
    (he : exec i s = .next (s.event f)) (hf : f s = u) (hu : u.scratch = .empty) :
    Completes i s u ∧ ∀ t, exec i s = .next t → t.disp = u.disp := by
  have hq : u.Quiet := ⟨congrArg Scratch.own hu, congrArg Scratch.collected hu⟩
  refine ⟨completes_of_event i s u f he (hf ▸ hq) (by rw [hf]) (hf ▸ State.Grows.refl u), fun t ht => ?_⟩
  obtain rfl : s.event f = t := Host.Outcome.next.inj (he.symm.trans ht)
  rw [State.event, hf]
  exact State.finish_disp u s hq (congrArg Scratch.told hu)

/-! ## The HOLD input (R60, R61) -/

theorem State.holdEdge_asserted (s : State) : s.holdEdge .asserted =
    ({ s with disp := { s.disp with held := true, actedOn := .asserted, settling := true } } : State).raise .hold := rfl

theorem State.holdEdge_released (s : State) : s.holdEdge .released =
    (({ s with disp := { s.disp with held := false, actedOn := .released, settling := true } } : State).raise
      .hold).tellDispatcher := rfl

/-- In SETTLING an edge starts the next period, and the debounce state stays. -/
theorem State.holdEdge_asserted_of_settling {s : State} (h : s.disp.settling = true) : s.holdEdge .asserted =
    ({ s with disp := { s.disp with held := true, actedOn := .asserted } } : State).raise .hold := by
  simp only [State.holdEdge_asserted, h]

theorem State.holdEdge_released_of_settling {s : State} (h : s.disp.settling = true) : s.holdEdge .released =
    (({ s with disp := { s.disp with held := false, actedOn := .released } } : State).raise .hold).tellDispatcher := by
  simp only [State.holdEdge_released, h]

theorem State.holdChange_edge {s : State} {level : HoldLevel} (hopen : s.disp.settling = false)
    (hlevel : level ≠ s.disp.actedOn) :
    s.holdChange level = ({ s with disp := { s.disp with holdInput := level } } : State).holdEdge level :=
  if_pos ⟨hopen, hlevel⟩

theorem State.holdChange_idle {s : State} {level : HoldLevel} (h : s.disp.settling = true ∨ level = s.disp.actedOn) :
    s.holdChange level = { s with disp := { s.disp with holdInput := level } } := by
  refine if_neg fun ⟨hopen, hlevel⟩ => ?_
  rcases h with hsettling | hsame
  · exact Bool.false_ne_true (hopen.symm.trans hsettling)
  · exact hlevel hsame

theorem State.holdSettled_agrees {s : State} (hsettling : s.disp.settling = true)
    (hsame : s.disp.holdInput = s.disp.actedOn) :
    s.holdSettled = { s with disp := { s.disp with settling := false } } := by
  rw [State.holdSettled, if_pos hsettling, if_pos hsame]

theorem State.holdSettled_edge {s : State} (hsettling : s.disp.settling = true)
    (hdiffer : s.disp.holdInput ≠ s.disp.actedOn) : s.holdSettled = s.holdEdge s.disp.holdInput := by
  rw [State.holdSettled, if_pos hsettling, if_neg hdiffer]

/-- Settles O31: an edge to ASSERTED and a mere move of the input make no crane eligible, so their events end plainly; a
release may, and completes. -/
theorem holdInputIsDebounced : Obligations.HoldInputIsDebounced := by
  intro s level hS
  refine ⟨fun hopen hlevel hacted => ?_, fun hopen hlevel hacted u hu => ?_, fun hidle => ?_, fun hsettling hsame => ?_,
    fun hsettling hinput hacted => ?_, fun hsettling hinput hacted u hu => ?_⟩
  · subst hlevel
    have hf : s.holdChange .asserted = _ := State.holdChange_edge hopen (by simp [hacted])
    rw [State.holdEdge_asserted] at hf
    exact congrArg Host.Outcome.next (State.event_writesDispatcher hS.scratch hf fun _ => rfl)
  · subst hlevel hu
    refine completes_of_nothingGathered (f := fun t => t.holdChange .released) rfl ?_ hS.scratch
    rw [State.holdChange_edge hopen (by simp [hacted]), State.holdEdge_released]
  · exact congrArg Host.Outcome.next (State.event_writesDispatcherAlone hS (State.holdChange_idle hidle) id)
  · exact congrArg Host.Outcome.next
      (State.event_writesDispatcherAlone hS (State.holdSettled_agrees hsettling hsame) id)
  · have hf := State.holdSettled_edge hsettling (by simp [hinput, hacted])
    rw [hinput, State.holdEdge_asserted_of_settling hsettling] at hf
    exact congrArg Host.Outcome.next (State.event_writesDispatcher hS.scratch hf fun _ => rfl)
  · subst hu
    refine completes_of_nothingGathered (f := State.holdSettled) rfl ?_ hS.scratch
    rw [State.holdSettled_edge hsettling (by simp [hinput, hacted]), hinput,
      State.holdEdge_released_of_settling hsettling]

end Sys2Proof.Machine
end

section
/-! The statement on the dispatch pass. -/

namespace Sys2Proof.Machine

/-! ## What the candidates and the trip numbers read -/

/-- The number of passes due makes no crane eligible and none ineligible. -/
theorem State.eligible_passesDue (s : State) (n : Nat) (c : Fin 8) :
    ({ s with disp := { s.disp with passesDue := n } } : State).eligible c = s.eligible c :=
  Bool.eq_iff_iff.2
    ⟨State.eligible_mono { s with disp := { s.disp with passesDue := n } } s c rfl rfl rfl rfl id fun _ => id,
      State.eligible_mono s { s with disp := { s.disp with passesDue := n } } c rfl rfl rfl rfl id fun _ => id⟩

/-- The candidates of a round do not depend on how many passes are due. -/
theorem State.candidates_passesDue (s : State) (n : Nat) :
    ({ s with disp := { s.disp with passesDue := n } } : State).candidates = s.candidates := by
  unfold State.candidates
  simp only [State.eligible_passesDue]
  rfl

/-- An entry of the Job Table with the last score that a round's candidates give it (step 2 of R71). -/
def withLastScore (l : List Candidate) (e : Nat × Job) : Nat × Job :=
  (e.1, { e.2 with lastScore := (lowestScore e.1 l).or e.2.lastScore })

theorem State.writeScores_eq (s : State) (l : List Candidate) :
    s.writeScores l = { s with jobs := s.jobs.map (withLastScore l) } := by
  unfold State.writeScores
  congr 2
  funext e
  unfold withLastScore
  cases lowestScore e.1 l <;> rfl

/-- Writing last scores leaves the STRANDED jobs of every trip number. -/
theorem State.strandedTrip_writeScores (s : State) (l : List Candidate) (c : Fin 8) (n : Nat) :
    (s.writeScores l).strandedTrip c n = s.strandedTrip c n := by
  rw [State.writeScores_eq]
  simp only [State.strandedTrip, State.jobsWhere, List.filter_map, List.map_map]
  rfl

/-- The next trip number reads the crane's line and its STRANDED jobs (R73). -/
theorem State.nextTripNumber_congr {u s : State} {c : Fin 8} (hl : u.line c = s.line c)
    (hj : ∀ n, u.strandedTrip c n = s.strandedTrip c n) : u.nextTripNumber c = s.nextTripNumber c := by
  have hpassed (n : Nat) : u.numberPassedOver c n = s.numberPassedOver c n := by
    simp only [State.numberPassedOver, hl, hj]
  have hfree (fuel n : Nat) : u.freeNumberFrom c fuel n = s.freeNumberFrom c fuel n := by
    induction fuel generalizing n with
    | zero => rfl
    | succ fuel ih => simp only [State.freeNumberFrom, hpassed, ih]
  rw [State.nextTripNumber, State.nextTripNumber, hl, hfree]

theorem State.nextTripNumber_passesDue (s : State) (n : Nat) (c : Fin 8) :
    ({ s with disp := { s.disp with passesDue := n } } : State).nextTripNumber c = s.nextTripNumber c :=
  State.nextTripNumber_congr (u := { s with disp := { s.disp with passesDue := n } }) (s := s) rfl fun _ => rfl

theorem State.nextTripNumber_writeScores (s : State) (l : List Candidate) (c : Fin 8) :
    (s.writeScores l).nextTripNumber c = s.nextTripNumber c :=
  State.nextTripNumber_congr rfl fun n => State.strandedTrip_writeScores s l c n

/-! ## The course of a pass (R71) -/

theorem State.rounds_of_noCandidate {s : State} (h : s.candidates = []) (fuel : Nat) : s.rounds fuel = s := by
  cases fuel with
  | zero => rfl
  | succ fuel =>
    unfold State.rounds
    generalize s.candidates = l at h
    subst h
    rfl

theorem State.rounds_of_best {s : State} {x : Candidate} (h : bestCandidate s.candidates = some x) (fuel : Nat) :
    s.rounds (fuel + 1) = ((s.writeScores s.candidates).assign x).rounds fuel := by
  conv_lhs => unfold State.rounds
  simp only [h]

theorem State.rounds_of_oneCandidate {s : State} {x : Candidate} (h : s.candidates = [x]) (fuel : Nat) :
    s.rounds (fuel + 1) = ((s.writeScores [x]).assign x).rounds fuel := by
  rw [State.rounds_of_best (by rw [h]; rfl) fuel, h]

theorem exec_dispatchPass {s : State} (h : 0 < s.disp.passesDue) :
    exec .dispatchPass s = .next (s.event State.dispatchPass) :=
  congrArg Host.Outcome.next (if_neg (Nat.pos_iff_ne_zero.1 h))

/-- In a table of rising index, writing the record at one key is changing the entry of that key. -/
theorem map_eq_insertKey {α : Type} {k : Nat} {v : α} {l : List (Nat × α)} (f : α → α) (hr : rising l = true)
    (h : lookup k l = some v) :
    l.map (fun e => if e.1 = k then (e.1, f e.2) else e) = insertKey k (f v) l := by
  induction l with
  | nil => cases h
  | cons e rest ih =>
    obtain ⟨k', v'⟩ := e
    obtain ⟨habove, hrest⟩ := (rising_cons _ _).1 hr
    by_cases hk : k = k'
    · subst hk
      obtain rfl : v' = v := by simpa [lookup] using h
      have hkeep : rest.map (fun e => if e.1 = k then (e.1, f e.2) else e) = rest :=
        (List.map_congr_left fun e he => if_neg (Nat.ne_of_gt (habove e he))).trans (List.map_id' rest)
      simp [insertKey, hkeep]
    · have hrestk : lookup k rest = some v := by simpa [lookup, hk] using h
      have hlt : k' < k := habove (k, v) (mem_of_lookup k v rest hrestk)
      simp [insertKey, ih hrest hrestk, Ne.symm hk, hk, Nat.not_lt_of_gt hlt]

/-- A round with one single candidate writes the last score of its job (step 2 of R71). -/
theorem State.writeScores_single {s : State} {x : Candidate} {i : Nat} {j : Job} (hx : x.legs = [i])
    (hr : rising s.jobs = true) (hj : s.job i = some j) :
    s.writeScores [x] = s.setJob i { j with lastScore := some x.score } := by
  have hentry : withLastScore [x] = fun e =>
      if e.1 = i then (e.1, { e.2 with lastScore := some x.score }) else e := by
    funext e
    by_cases h : e.1 = i <;> simp [withLastScore, lowestScore, hx, h]
  rw [State.writeScores_eq, hentry, map_eq_insertKey (fun k : Job => { k with lastScore := some x.score }) hr hj,
    State.setJob]

/-- A crane's line when the ORDER of a new trip `n` for job `j` of record `i` alone has been sent (R73, R118, R125): the
trip, its number, ORDERING, and the exchange with a fresh answer timer. -/
def Line.withOrder (l : Line) (n i : Nat) (j : Job) (tack : Nat) : Line :=
  { l with
    trip := some ⟨n, [⟨1, i, false, false, false⟩], none, false, true⟩
    lastTrip := n
    ctx := { l.ctx with work := .ordering }
    exchange := some ⟨.order n, .order n none [⟨1, j.kind, j.aisle, j.slot, j.target⟩], 0, tack⟩
    sent := l.sent ++ [Telegram.order n none [⟨1, j.kind, j.aisle, j.slot, j.target⟩]] }

/-- A single job in the aisle where its crane stands, whose lock the crane holds, is assigned without a transfer, and its
ORDER is sent at once while no exchange is open (R73, R75, R119, R125). -/
theorem State.assign_single {s : State} {x : Candidate} {i n : Nat} {j : Job} (hx : x.legs = [i])
    (hj : s.job i = some j) (hn : s.nextTripNumber x.crane = some n)
    (haisle : (s.line x.crane).ctx.aisle = .inAisle x.aisle) (hlock : s.holdsLock x.crane x.aisle = true)
    (hup : (s.line x.crane).link = .up) (hex : (s.line x.crane).exchange = none) :
    s.assign x =
      (s.setJob i { j with state := .ordered, assignment := some ⟨x.crane, n, 1⟩ }).setLine x.crane
        ((s.line x.crane).withOrder n i j s.settings.tack) := by
  have hkeep : s.setLock x.aisle (some x.crane) = s := by
    have hholder : (s.aisle x.aisle).lock = some x.crane := by simpa [State.holdsLock] using hlock
    rw [State.setLock, ← hholder, State.setAisle_aisle]
  have htransfer : s.transferTo x.crane x.aisle = none := by simp [State.transferTo, haisle]
  simp only [State.assign, hn, hx, numberLegs, hkeep, htransfer, State.orderJobs, List.foldl_cons, List.foldl_nil,
    State.updateJob_of_job hj]
  simp [State.sendWaiting, hup, hex, Line.tripToOrder, State.openExchange, State.send, State.updateLine,
    State.orderTelegram, State.orderLeg, Line.withOrder]

/-- The round that takes such a job: its last score, its assignment, and the crane's line with its new trip. -/
theorem State.round_single {s : State} {x : Candidate} {i n : Nat} {j : Job} (hx : x.legs = [i])
    (hr : rising s.jobs = true) (hj : s.job i = some j) (hn : s.nextTripNumber x.crane = some n)
    (haisle : (s.line x.crane).ctx.aisle = .inAisle x.aisle) (hlock : s.holdsLock x.crane x.aisle = true)
    (hup : (s.line x.crane).link = .up) (hex : (s.line x.crane).exchange = none) :
    (s.writeScores [x]).assign x =
      (s.setJob i { j with state := .ordered, assignment := some ⟨x.crane, n, 1⟩, lastScore := some x.score }).setLine
        x.crane ((s.line x.crane).withOrder n i j s.settings.tack) := by
  have hscored := State.writeScores_single hx hr hj
  have hjob : (s.writeScores [x]).job i = some { j with lastScore := some x.score } := by
    rw [hscored, State.job_setJob_self]
  rw [State.assign_single hx hjob ((State.nextTripNumber_writeScores s [x] x.crane).trans hn) haisle hlock hup hex,
    hscored, State.setJob_setJob]
  rfl

/-- Settles O30: a pass without a candidate ends at once; with one, its first round assigns it, and the state so left
offers no other. -/
theorem passServesItsCandidates : Obligations.PassServesItsCandidates := by
  refine ⟨fun s hS hdue hnone => ?_,
    fun s u c a i n j score age hS hdue hone hj hr _ haisle hlock hn hup hex hu hnone => ?_⟩
  · have hpass : s.dispatchPass = { s with disp := { s.disp with passesDue := s.disp.passesDue - 1 } } :=
      State.rounds_of_noCandidate ((State.candidates_passesDue s _).trans hnone) 8
    rw [exec_dispatchPass hdue, State.event_writesDispatcherAlone hS hpass id]
  · generalize hv : ({ s with disp := { s.disp with passesDue := s.disp.passesDue - 1 } } : State) = v at hu
    have hcands : v.candidates = [⟨c, a, [i], score, age, i, i⟩] := by rw [← hv, State.candidates_passesDue, hone]
    have hnext : v.nextTripNumber c = some n := by rw [← hv, State.nextTripNumber_passesDue, hn]
    have hround : (v.writeScores [⟨c, a, [i], score, age, i, i⟩]).assign ⟨c, a, [i], score, age, i, i⟩ = u := by
      subst hv
      rw [hu]
      exact State.round_single rfl hr hj hnext haisle hlock hup hex
    have hpass : s.dispatchPass = u := by
      rw [State.dispatchPass, hv, State.rounds_of_oneCandidate hcands 7, hround, State.rounds_of_noCandidate hnone]
    have hgathered : u.scratch = .empty := by rw [hu, ← hv]; exact hS.scratch
    obtain ⟨⟨t, hexec, hsettled, hbare, hgrows⟩, hdisp⟩ :=
      completes_of_nothingGathered (exec_dispatchPass hdue) hpass hgathered
    exact ⟨t, hexec, hsettled, hbare, hgrows, hdisp t hexec⟩

end Sys2Proof.Machine
end

section
/-! The statements on sequence groups. -/

namespace Sys2Proof.Machine

/-! ## The advance (R83, R84) -/

/-- Step 2 of R83 on a rising set of ranks from the next rank on stops at the first rank `n` that is not in it, and leaves
what lies beyond. -/
theorem absorbRanks_eq {n next : Nat} {l : List Nat} (hr : l.Pairwise (· < ·)) (hl : ∀ r ∈ l, next ≤ r) (hn : next ≤ n)
    (hnot : n ∉ l) (hall : ∀ r, next ≤ r → r < n → r ∈ l) : absorbRanks next l = (n, l.filter (fun r => n < r)) := by
  induction l generalizing next with
  | nil =>
    have hstop : ¬ next < n := fun h => List.not_mem_nil (hall next (Nat.le_refl _) h)
    obtain rfl : next = n := by omega
    rfl
  | cons x xs ih =>
    obtain ⟨habove, hrest⟩ := List.pairwise_cons.1 hr
    obtain ⟨hne, hnot'⟩ := not_or.1 (mt List.mem_cons.2 hnot)
    by_cases hx : x = next
    · subst hx
      have hrest' : absorbRanks (x + 1) xs = (n, xs.filter (fun r => n < r)) := by
        refine ih hrest habove (by omega) hnot' fun r hfrom hto => ?_
        exact (List.mem_cons.1 (hall r (by omega) hto)).resolve_left (by omega)
      rw [absorbRanks, if_pos rfl, hrest', List.filter_cons_of_neg (by simpa using hn)]
    · have hnext : next < x := Nat.lt_of_le_of_ne (hl x List.mem_cons_self) (Ne.symm hx)
      have hbeyond : ∀ r ∈ x :: xs, next < r :=
        List.forall_mem_cons.2 ⟨hnext, fun r hr => Nat.lt_trans hnext (habove r hr)⟩
      have hstop : ¬ next < n := fun h => Nat.lt_irrefl _ (hbeyond next (hall next (Nat.le_refl _) h))
      obtain rfl : next = n := by omega
      rw [absorbRanks, if_neg hx, List.filter_eq_self.2 fun r hr => decide_eq_true (hbeyond r hr)]

/-- The advance to a rank that there is. -/
theorem State.advanceGroup_moves (s : State) (g : Fin 16) {o : OpenGroup} {n : Nat} {l : List Nat}
    (h : absorbRanks (o.next + 1) o.ahead = (n, l)) (hn : n ≤ 65535) :
    s.advanceGroup g o = (s.setGroup g { s.group g with
      opened := some { o with next := n, ahead := l, stallTimer := 0, stallReported := false } }).tellDispatcher := by
  simp only [State.advanceGroup, h, if_pos hn]

/-- The advance past rank 65535 (R84). -/
theorem State.advanceGroup_closes (s : State) (g : Fin 16) {o : OpenGroup} {n : Nat} {l : List Nat}
    (h : absorbRanks (o.next + 1) o.ahead = (n, l)) (hn : ¬ n ≤ 65535) : s.advanceGroup g o = s.setGroup g .closed := by
  simp only [State.advanceGroup, h, if_neg hn]

/-- Settles O34: the ranks absorbed are those up to the first one that is not done ahead. -/
theorem advancePassesFinishedRanks : Obligations.AdvancePassesFinishedRanks := by
  intro s g o n hrise hwindow hn hnot hall hlast
  refine ⟨State.advanceGroup_moves s g ?_ hlast, fun r hr => ?_⟩
  · exact absorbRanks_eq hrise (fun r hr => (hwindow r hr).1) hn hnot hall
  · obtain ⟨hmem, hbeyond⟩ := List.mem_filter.1 hr
    have hlimit := (hwindow r hmem).2
    exact ⟨of_decide_eq_true hbeyond, by omega⟩

/-! ## The report of a stall (R87) -/

theorem OpenGroup.stalls_iff (o : OpenGroup) :
    o.stalls = true ↔ o.stallLimit ≠ 0 ∧ o.stallReported = false ∧ o.stallLimit ≤ o.stallTimer := by
  simp only [OpenGroup.stalls, Bool.and_eq_true, bne_iff_ne, Bool.not_eq_true', decide_eq_true_eq, and_assoc]

theorem State.reportStall_stalls {s : State} {g : Fin 16} {o : OpenGroup} (h : (s.group g).opened = some o)
    (ho : o.stalls = true) : s.reportStall g =
      (s.setGroup g { s.group g with opened := some { o with stallReported := true } }).raise .seqStall := by
  simp only [State.reportStall, h, if_pos ho]

theorem State.reportStall_idle {s : State} {g : Fin 16} (h : ∀ o, (s.group g).opened = some o → o.stalls ≠ true) :
    s.reportStall g = s := by
  cases hg : (s.group g).opened with
  | none => simp only [State.reportStall, hg]
  | some o => simp only [State.reportStall, hg, if_neg (h o hg)]

/-- Settles O35: a report gathers nothing, and without one the event leaves the settled state. -/
theorem stallIsReportedOnce : Obligations.StallIsReportedOnce := by
  intro g s hS
  refine ⟨fun o ho hlimit hunreported htimer => ?_, fun hidle => ?_⟩
  · have hreport := State.reportStall_stalls ho (o.stalls_iff.2 ⟨hlimit, hunreported, htimer⟩)
    exact (completes_of_nothingGathered (f := fun t => t.reportStall g) rfl hreport hS.scratch).1
  · have hnone : s.reportStall g = s := State.reportStall_idle fun o ho hstalls => by
      obtain ⟨hlimit, hunreported, htimer⟩ := o.stalls_iff.1 hstalls
      rcases hidle o ho with hzero | hreported | hbelow
      · exact hlimit hzero
      · simp [hreported] at hunreported
      · omega
    exact congrArg Host.Outcome.next (State.event_id s (fun t => t.reportStall g) hS hnone)

/-! ## OPEN GROUP and CLOSE GROUP (R88, R89) -/

/-- A done-ahead set without ranks, in bytes (R190). -/
theorem OpenGroup.putAhead_of_noneAhead {o : OpenGroup} (h : o.ahead = []) : o.putAhead = [0, 0, 0, 0] := by
  rw [OpenGroup.putAhead, h, List.foldl_nil]
  rfl

theorem State.serveOpenGroup_closed {s : State} {b : List Byte} {g : Fin 16} (hg : byteAt b 0 = g.val + 1)
    (hfirst : 1 ≤ wordAt b 1) (hclosed : (s.group g).opened = none) : s.serveOpenGroup b =
      accept (s.setGroup g (openedGroup (wordAt b 1) (byteAt b 3) (wordAt b 4))) (fun _ =>
        putFlag (decide (byteAt b 3 = 0 ∨ 32 < byteAt b 3)) ++
          (openedGroup (wordAt b 1) (byteAt b 3) (wordAt b 4)).put) := by
  have hfirst' : wordAt b 1 ≠ 0 := Nat.ne_of_gt hfirst
  simp only [State.serveOpenGroup, readGroup_of_group g hg, if_neg hfirst', hclosed, Option.isSome_none,
    Bool.false_eq_true, if_false]

/-- The record of a group just opened, in the bytes of its reply. -/
theorem openedGroup_put (first window limit : Nat) : (openedGroup first window limit).put =
    [1, 1] ++ put2 first ++ [1] ++ put1 (max 1 (min 32 window)) ++ [1, 0, 0, 0, 0, 0, 0, 1] ++ put2 limit ++
      [1, 0, 0, 1, 0] := by
  have hahead : OpenGroup.putAhead ⟨first, clampTo 1 32 window, [], limit, 0, false⟩ = [0, 0, 0, 0] :=
    OpenGroup.putAhead_of_noneAhead rfl
  simp only [Group.put, openedGroup, putOption, hahead, List.append_assoc]
  rfl

theorem State.serveCloseGroup_of_group {s : State} {b : List Byte} {g : Fin 16} (hg : byteAt b 0 = g.val + 1) :
    s.serveCloseGroup b =
      if (s.group g).opened = none then accept s (fun _ => [])
      else if (s.group g).members = 0 then accept (s.setGroup g .closed) (fun _ => [])
      else refuse s .notAllowed := by
  simp only [State.serveCloseGroup, readGroup_of_group g hg, Option.isNone_iff_eq_none]

/-- Settles O32: OPEN GROUP of a CLOSED group, and the three ways of CLOSE GROUP. -/
theorem groupsOpenAndClose : Obligations.GroupsOpenAndClose := by
  intro n b g s hg
  refine ⟨fun hlen hfirst hclosed hturn => ?_, fun hlen hturn => ?_⟩
  · have hrow : requestRow 0x40 = some (everyPhase 0x40 6) := by decide
    have hexec := exec_served (i := .openGroup n b) rfl hturn (lengthAgrees_everyPhase hrow hlen)
      (admitted_everyPhase s.phase hrow) (State.serveOpenGroup_closed (s := s.popRequest) hg hfirst hclosed) rfl
    rw [hexec, openedGroup_put]
    simp only [← List.append_assoc]
    rfl
  · have hrow : requestRow 0x41 = some (everyPhase 0x41 1) := by decide
    have hl := lengthAgrees_everyPhase hrow hlen
    have hp := admitted_everyPhase s.phase hrow
    have hserve := State.serveCloseGroup_of_group (s := s.popRequest) hg
    refine ⟨fun hopen hempty => ?_, fun hclosed => ?_, fun hopen hmembers => ?_⟩
    · exact exec_served rfl hturn hl hp (hserve.trans ((if_neg hopen).trans (if_pos hempty))) rfl
    · exact exec_served rfl hturn hl hp (hserve.trans (if_pos hclosed)) rfl
    · exact exec_refused rfl hturn hl hp (hserve.trans ((if_neg hopen).trans (if_neg hmembers))) rfl

/-! ## SKIP RANK (R90) -/

theorem State.finishRank_next {s : State} {g : Fin 16} {o : OpenGroup} (h : (s.group g).opened = some o) :
    s.finishRank g o.next = s.advanceGroup g o := by
  simp only [State.finishRank, h, if_true]

theorem State.finishRank_beyond {s : State} {g : Fin 16} {o : OpenGroup} {r : Nat} (h : (s.group g).opened = some o)
    (hr : o.next < r) :
    s.finishRank g r = s.setGroup g { s.group g with opened := some { o with ahead := insertRank r o.ahead } } := by
  simp only [State.finishRank, h, if_neg (Nat.ne_of_gt hr), if_pos hr]

/-- The bytes of an OPEN group with nothing done ahead in the reply to SKIP RANK. -/
theorem Group.putSkipped_of_noneAhead {r : Group} {o : OpenGroup} (h : r.opened = some o) (hahead : o.ahead = []) :
    r.putSkipped = put1 1 ++ put2 o.next ++ [1, 0, 0, 0, 0] := by
  simp only [Group.putSkipped, h, putOption, OpenGroup.putAhead_of_noneAhead hahead]
  rfl

/-- SKIP RANK at its owner, of a rank within R90's limits that is neither held nor done ahead. -/
theorem State.serveSkipRank_finishes {s : State} {b : List Byte} {g : Fin 16} {o : OpenGroup}
    (hg : byteAt b 0 = g.val + 1) (ho : (s.group g).opened = some o) (hheld : s.rankHeld g (wordAt b 1) = false)
    (hnot : wordAt b 1 ∉ o.ahead) (hlow : o.next ≤ wordAt b 1) (hhigh : wordAt b 1 ≤ o.next + 31) :
    s.serveSkipRank b = accept (s.finishRank g (wordAt b 1)) (fun t => (t.group g).putSkipped) := by
  have hlast := wordAt_lt b 1
  have hmay : o.maySkip (wordAt b 1) = true := by
    simp only [OpenGroup.maySkip, Bool.and_eq_true, decide_eq_true_eq]
    omega
  have hahead : o.ahead.contains (wordAt b 1) = false := by simpa using hnot
  simp only [State.serveSkipRank, readGroup_of_group g hg, ho, hmay, hheld, hahead, Bool.not_true, Bool.false_eq_true,
    if_false]

/-- SKIP RANK that finishes its rank answers with the group as that leaves it. -/
theorem exec_skipRank_finishes {n : Byte} {b : List Byte} {g : Fin 16} {o : OpenGroup} {s t : State}
    (hg : byteAt b 0 = g.val + 1) (hlen : b.length = 3) (ho : (s.group g).opened = some o)
    (hheld : s.rankHeld g (wordAt b 1) = false) (hnot : wordAt b 1 ∉ o.ahead) (hturn : s.hasTurn ⟨0x42, n, b⟩)
    (hlow : o.next ≤ wordAt b 1) (hhigh : wordAt b 1 ≤ o.next + 31)
    (ht : s.popRequest.finishRank g (wordAt b 1) = t) :
    exec (.skipRank n b) s = .next (t.answer ⟨0x42, n, b⟩ .ok (t.group g).putSkipped) := by
  have hrow : requestRow 0x42 = some (everyPhase 0x42 3) := by decide
  subst ht
  exact exec_served rfl hturn (lengthAgrees_everyPhase hrow hlen) (admitted_everyPhase s.phase hrow)
    (State.serveSkipRank_finishes (s := s.popRequest) hg ho hheld hnot hlow hhigh) rfl

/-- Settles O33: a rank beyond the next one joins the set; with the set empty the next one advances the group by one, or
past rank 65535 closes it. -/
theorem skippedRankIsFinished : Obligations.SkippedRankIsFinished := by
  intro n b g o s u hg hlen ho hheld hnot hturn
  have hexec {t : State} := exec_skipRank_finishes (t := t) hg hlen ho hheld hnot hturn
  refine ⟨fun hbeyond hlimit hu => ?_, fun hnext hlast hahead hu => ?_, fun hnext hlast hahead => ?_⟩
  · subst hu
    exact hexec hbeyond.le hlimit (State.finishRank_beyond (s := s.popRequest) ho hbeyond)
  · have habsorb : absorbRanks (o.next + 1) o.ahead = (o.next + 1, o.ahead) := by rw [hahead, absorbRanks]
    have hfinish : s.popRequest.finishRank g (wordAt b 1) = u := by
      rw [hnext, State.finishRank_next (s := s.popRequest) ho, hu]
      exact State.advanceGroup_moves s.popRequest g habsorb hlast
    have hgroup : (u.group g).opened =
        some { o with next := o.next + 1, stallTimer := 0, stallReported := false } := by
      rw [hu, State.group_tellDispatcher, State.group_setGroup]
    rw [hexec hnext.ge (by omega) hfinish, Group.putSkipped_of_noneAhead hgroup hahead]
  · have habsorb : absorbRanks (o.next + 1) o.ahead = (65536, []) := by rw [hahead, hlast, absorbRanks]
    have hfinish : s.popRequest.finishRank g (wordAt b 1) = s.popRequest.setGroup g .closed := by
      rw [hnext, State.finishRank_next (s := s.popRequest) ho]
      exact State.advanceGroup_closes s.popRequest g habsorb (by decide)
    rw [hexec hnext.ge (by omega) hfinish, State.group_setGroup]
    rfl

end Sys2Proof.Machine
end

section
/-! Rules for the Car Line Controller (Chapter 5): what each of its operations does in the cases that R102 to R112 tell
apart, as a write of the car's record and of the crane's line. -/

namespace Sys2Proof.Machine

/-! ## The open exchange and the waiting CAR ORDER (R102) -/

theorem Car.orderOpen_of_noExchange {k : Car} (h : k.exchange = none) : k.orderOpen = false := by
  simp only [Car.orderOpen, h]

theorem Car.orderOpen_of_order {k : Car} {x : CarExchange} (h : k.exchange = some x) (hx : x.isOrder = true) :
    k.orderOpen = true := by simp only [Car.orderOpen, h, hx]

theorem Car.pollOpen_of_noExchange {k : Car} (h : k.exchange = none) : k.pollOpen = false := by
  simp only [Car.pollOpen, h]

theorem Car.isCurrent_of_noRequest {k : Car} (h : k.current = none) (n : Nat) : k.isCurrent n = false := by
  simp only [Car.isCurrent, h]

theorem Car.isCurrent_of_request {k : Car} {r : CurrentRequest} (h : k.current = some r) (n : Nat) :
    k.isCurrent n = (r.order == n) := by simp only [Car.isCurrent, h]

theorem State.sendWaitingCar_of_noneWaiting {s : State} (h : s.car.orderWaiting = false) : s.sendWaitingCar = s := by
  unfold State.sendWaitingCar
  split
  · rfl
  · simp [h]

theorem State.sendWaitingCar_of_noRequest {s : State} (h : s.car.current = none) : s.sendWaitingCar = s := by
  simp only [State.sendWaitingCar, h]

theorem State.sendWaitingCar_sends {s : State} {r : CurrentRequest} (hr : s.car.current = some r)
    (hwait : s.car.orderWaiting = true) (hlink : s.car.link = .up) (hx : s.car.exchange = none) :
    s.sendWaitingCar = { s with car := { s.car with
      orderWaiting := false
      exchange := some ⟨true, r.telegram, 0, s.settings.tack⟩
      sent := s.car.sent ++ [r.telegram] } } := by
  unfold State.sendWaitingCar
  split
  · next hnone => cases hnone.symm.trans hr
  · next q hq =>
    obtain rfl : q = r := Option.some.inj (hq.symm.trans hr)
    exact if_pos ⟨hwait, hlink, hx⟩

/-! ## Transfers and the queue (R104, R105) -/

theorem State.updateTransfer_of_trip {s : State} {c : Fin 8} {t : Trip} {y : Transfer} (ht : (s.line c).trip = some t)
    (hy : t.transfer = some y) (f : Transfer → Transfer) :
    s.updateTransfer c f = s.setLine c { s.line c with trip := some { t with transfer := some (f y) } } := by
  simp only [State.updateTransfer, State.updateLine, ht, hy, Option.map_some]

theorem State.updateTransfer_updateCar (s : State) (f : Car → Car) (c : Fin 8) (g : Transfer → Transfer) :
    (s.updateCar f).updateTransfer c g = (s.updateTransfer c g).updateCar f := rfl

theorem State.serveQueue_of_empty {s : State} (h : s.car.queue = []) : s.serveQueue = s := by
  simp only [State.serveQueue, h]

theorem State.serveQueue_of_mayNot {s : State} (h : s.car.mayServe = false) : s.serveQueue = s := by
  unfold State.serveQueue
  split
  · rfl
  · simp [h]

theorem Car.mayServe_of_notReady {k : Car} (h : k.notReady = true) : k.mayServe = false := by simp [Car.mayServe, h]

theorem Car.mayServe_of_working {k : Car} (h : k.work ≠ .idle) : k.mayServe = false := by simp [Car.mayServe, h]

/-- The head of the queue is served: its request becomes the current one and its CAR ORDER goes out at once. -/
theorem State.serveQueue_serves {s : State} {e : CarRequest} {rest : List CarRequest} {t : Trip} {y : Transfer} {m : Nat}
    (hqueue : s.car.queue = e :: rest) (hmay : s.car.mayServe = true) (hlink : s.car.link = .up)
    (hx : s.car.exchange = none) (ht : (s.line e.crane).trip = some t) (hy : t.transfer = some y)
    (hm : m = nextOrderNumber s.car.orderNumber s.car.orderInHand) :
    s.serveQueue = ({ s with car := { s.car with
      queue := rest
      current := some ⟨m, e.crane, e.fromAisle, e.toAisle, t.number⟩
      orderNumber := m
      work := .ordering
      orderWaiting := false
      exchange := some ⟨true, .order m e.crane e.fromAisle e.toAisle, 0, s.settings.tack⟩
      sent := s.car.sent ++ [CarTelegram.order m e.crane e.fromAisle e.toAisle] } }).setLine e.crane
        { s.line e.crane with trip := some { t with transfer := some { y with stage := .serving } } } := by
  have hnumber : (s.line e.crane).tripNumber = t.number := by simp only [Line.tripNumber, ht]
  simp only [State.serveQueue, hqueue, hmay, if_true, hnumber, ← hm]
  rw [State.updateTransfer_updateCar, State.updateTransfer_of_trip ht hy,
    State.sendWaitingCar_sends (r := ⟨m, e.crane, e.fromAisle, e.toAisle, t.number⟩)]
  exacts [rfl, rfl, rfl, hlink, hx]

/-! ## The car's answer (R106) -/

/-- A car that has answered for its request already, with no CAR ORDER open. -/
theorem State.answerCarOrder_of_answered {s : State} (hx : s.car.exchange = none) (hwork : s.car.work ≠ .ordering) :
    s.answerCarOrder = s := by
  simp [State.answerCarOrder, Car.orderOpen_of_noExchange hx, hwork]

theorem State.answerCarOrder_closes {s : State} {x : CarExchange} (hx : s.car.exchange = some x)
    (horder : x.isOrder = true) (hwork : s.car.work = .ordering) :
    s.answerCarOrder = { s with car := { s.car with
      exchange := none
      silence := s.settings.pollInterval
      work := .fetching
      jobTimer := some 0
      orderWaiting := false } } := by
  simp only [State.answerCarOrder, Car.orderOpen_of_order hx horder, hwork, if_true]
  rfl

theorem State.answerCarOrder_of_noExchange {s : State} (hx : s.car.exchange = none) (hwork : s.car.work = .ordering) :
    s.answerCarOrder = { s with car := { s.car with
      work := .fetching
      jobTimer := some 0
      orderWaiting := false } } := by
  simp only [State.answerCarOrder, Car.orderOpen_of_noExchange hx, hwork, if_true, Bool.false_eq_true, if_false]
  rfl

/-- A CAR ACK of the current order, while its CAR ORDER is open. -/
theorem State.takeCarAck_answers {s : State} {r : CurrentRequest} {x : CarExchange} (hr : s.car.current = some r)
    (hx : s.car.exchange = some x) (horder : x.isOrder = true) (hwork : s.car.work = .ordering)
    (hwait : s.car.orderWaiting = false) :
    s.takeCarAck r.order = { s with car := { s.car with
      exchange := none
      silence := s.settings.pollInterval
      work := .fetching
      jobTimer := some 0 } } := by
  have hcurrent : s.car.isCurrent r.order = true := by simp [Car.isCurrent_of_request hr]
  simp only [State.takeCarAck, hcurrent, Car.orderOpen_of_order hx horder, Bool.and_self, if_true,
    State.answerCarOrder_closes hx horder hwork]
  rw [State.sendWaitingCar_of_noneWaiting]
  · simp only [hwait]
  · rfl

/-! ## Refusals (R107) -/

theorem State.storeRefusal_plain {s : State} {k : CarRefusal} (h : k = .fault → s.car.fault = true) :
    s.storeRefusal k = { s with car := { s.car with
      lastRefusal := some k
      notReady := true
      mode := if k = .manual then .manual else s.car.mode } } := by
  cases k with
  | busy => rfl
  | manual => rfl
  | fault => exact if_pos (h rfl)

theorem State.storeRefusal_fault {s : State} (h : s.car.fault = false) :
    s.storeRefusal .fault = ({ s with car := { s.car with
      lastRefusal := some .fault
      notReady := true
      fault := true } } : State).raise .car := by
  exact if_neg (by simp [h])

/-- The refused request of a trip that stands waits at the head again; a car marked not ready does not serve it. -/
theorem State.returnRequest_of_trip {s : State} {r : CurrentRequest} {t : Trip} {y : Transfer}
    (ht : (s.line r.crane).trip = some t) (hnumber : t.number = r.trip) (hy : t.transfer = some y)
    (hready : s.car.notReady = true) :
    s.returnRequest r = ({ s with car := { s.car with
      current := none
      work := .idle
      orderWaiting := false
      queue := ⟨r.crane, r.fromAisle, r.toAisle⟩ :: s.car.queue } } : State).setLine r.crane
        { s.line r.crane with trip := some { t with transfer := some { y with stage := .queued } } } := by
  have hholds : (s.line r.crane).holdsTrip r.trip = true := by simp [Line.holdsTrip, ht, hnumber]
  simp only [State.returnRequest, State.line_updateCar, hholds, if_true]
  rw [State.updateTransfer_updateCar, State.updateTransfer_updateCar, State.updateTransfer_of_trip ht hy,
    State.serveQueue_of_mayNot]
  · rfl
  · exact Car.mayServe_of_notReady hready

/-- A CAR NAK of the current order, while its CAR ORDER is open. -/
theorem State.takeCarNak_refuses {s : State} {r : CurrentRequest} {x : CarExchange} (hr : s.car.current = some r)
    (hx : s.car.exchange = some x) (horder : x.isOrder = true) (hwork : s.car.work = .ordering) (k : CarRefusal) :
    s.takeCarNak r.order k = (s.closeCarExchange.storeRefusal k).returnRequest r := by
  simp only [State.takeCarNak, hr, hwork, and_self, if_true, Car.orderOpen_of_order hx horder]

/-- The request of a trip that stands waits at the head again. -/
theorem State.takeCarNak_plain {s : State} {r : CurrentRequest} {x : CarExchange} {t : Trip} {y : Transfer}
    {k : CarRefusal} (hr : s.car.current = some r) (hx : s.car.exchange = some x) (horder : x.isOrder = true)
    (hwork : s.car.work = .ordering) (hwait : s.car.orderWaiting = false) (ht : (s.line r.crane).trip = some t)
    (hnumber : t.number = r.trip) (hy : t.transfer = some y) (hk : k = .fault → s.car.fault = true) :
    s.takeCarNak r.order k = ({ s with car := { s.car with
      exchange := none
      silence := s.settings.pollInterval
      lastRefusal := some k
      notReady := true
      mode := if k = .manual then .manual else s.car.mode
      current := none
      work := .idle
      queue := ⟨r.crane, r.fromAisle, r.toAisle⟩ :: s.car.queue } } : State).setLine r.crane
        { s.line r.crane with trip := some { t with transfer := some { y with stage := .queued } } } := by
  rw [State.takeCarNak_refuses hr hx horder hwork, State.storeRefusal_plain (s := s.closeCarExchange) hk,
    State.returnRequest_of_trip (t := t) (y := y)]
  · simp only [← hwait]
    rfl
  · exact ht
  · exact hnumber
  · exact hy
  · rfl

/-- The reason FAULT, of a car not known to have a fault, raises CAR besides. -/
theorem State.takeCarNak_fault {s : State} {r : CurrentRequest} {x : CarExchange} {t : Trip} {y : Transfer}
    (hr : s.car.current = some r) (hx : s.car.exchange = some x) (horder : x.isOrder = true)
    (hwork : s.car.work = .ordering) (hwait : s.car.orderWaiting = false) (ht : (s.line r.crane).trip = some t)
    (hnumber : t.number = r.trip) (hy : t.transfer = some y) (hclear : s.car.fault = false) :
    s.takeCarNak r.order .fault = (({ s with car := { s.car with
      exchange := none
      silence := s.settings.pollInterval
      lastRefusal := some .fault
      notReady := true
      fault := true
      current := none
      work := .idle
      queue := ⟨r.crane, r.fromAisle, r.toAisle⟩ :: s.car.queue } } : State).setLine r.crane
        { s.line r.crane with trip := some { t with transfer := some { y with stage := .queued } } }).raise .car := by
  rw [State.takeCarNak_refuses hr hx horder hwork, State.storeRefusal_fault (s := s.closeCarExchange) hclear,
    State.returnRequest_of_trip (t := t) (y := y)]
  · simp only [← hwait]
    rfl
  · exact ht
  · exact hnumber
  · exact hy
  · rfl

/-! ## Phases (R108) -/

/-- The one phase beyond where a work state stands, up to the next one. -/
theorem allCarPhases_filter_next {w : CarWork} {p : CarPhase} (h : p.rank = w.rank + 1) :
    allCarPhases.filter (fun q => w.rank < q.rank && q.rank ≤ p.rank) = [p] := by
  have hw : w.rank = p.rank - 1 := by omega
  rw [hw]
  cases p <;> rfl

/-- The next phase of the current request, reported by a car that has answered for it. -/
theorem State.takePhase_next {s : State} {r : CurrentRequest} {p : CarPhase} (hr : s.car.current = some r)
    (hx : s.car.exchange = none) (hwork : s.car.work ≠ .ordering) (hp : p.rank = s.car.work.rank + 1) :
    s.takePhase r.order p = (s.applyPhase r p).sendWaitingCar := by
  have hcurrent : s.car.isCurrent r.order = true := by simp [Car.isCurrent_of_request hr]
  simp only [State.takePhase, hcurrent, if_true, State.answerCarOrder_of_answered hx hwork, State.applyPhases, hr,
    allCarPhases_filter_next hp, List.foldl_cons, List.foldl_nil]

/-- A lock that is not the crane's stays. -/
theorem State.releaseLock_of_notHeld {s : State} {c : Fin 8} {a : Fin 16} (h : s.holdsLock c a = false) :
    s.releaseLock c a = s := by simp only [State.releaseLock, h, Bool.false_eq_true, if_false]

theorem State.releaseLock_of_held {s : State} {c : Fin 8} {a : Fin 16} (h : s.holdsLock c a = true) :
    s.releaseLock c a = (s.setAisle a { s.aisle a with lock := none }).tellDispatcher := by
  simp only [State.releaseLock, h, if_true, State.setLock]

/-- Giving a lock to the crane that holds it changes nothing. -/
theorem State.setLock_of_held {s : State} {c : Fin 8} {a : Fin 16} (h : s.holdsLock c a = true) :
    s.setLock a (some c) = s := by
  have hlock : (s.aisle a).lock = some c := by simpa [State.holdsLock] using h
  rw [State.setLock, ← hlock]
  exact State.setAisle_aisle s a

/-- R100 for a crane that holds the lock of its aisle and no other: there is no conflict, and no lock changes. -/
theorem State.settleLocks_of_holder {s : State} {c : Fin 8} {z : Fin 16} (hz : s.holdsLock c z = true)
    (hother : ∀ a, a ≠ z → s.holdsLock c a = false) (rebuilt : Option (Fin 16)) :
    s.settleLocks c z rebuilt = s.updateCtx c (fun x => { x with conflict := false }) := by
  have hlock : (s.aisle z).lock = some c := by simpa [State.holdsLock] using hz
  have hgets : s.getsLock c z = true := by simp [State.getsLock, hlock]
  have hrelease (a : Fin 16) :
      (if a = z ∨ a ∈ s.keptDestinations c rebuilt then s else s.releaseLock c a) = s := by
    by_cases ha : a = z
    · rw [if_pos (.inl ha)]
    · rw [State.releaseLock_of_notHeld (hother a ha), ite_self]
  simp only [State.settleLocks, hgets, if_true, State.setLock_of_held hz]
  rw [foldl_same _ s hrelease]

/-- ALIGHTED for a crane without a trip that holds the lock of the to aisle alone, with no request queued. -/
theorem State.alight_of_noTrip {s : State} {r : CurrentRequest} (htrip : (s.line r.crane).trip = none)
    (hlock : s.holdsLock r.crane r.toAisle = true) (hother : ∀ a, a ≠ r.toAisle → s.holdsLock r.crane a = false)
    (hqueue : s.car.queue = []) :
    s.alight r = ((({ s with car := { s.car with
        work := .idle
        position := some r.toAisle
        jobTimer := none
        overdue := false
        current := none
        orderWaiting := false } } : State).setLine r.crane
      { s.line r.crane with ctx := { (s.line r.crane).ctx with
          aisle := .inAisle r.toAisle, position := some (0, 0), conflict := false } }).noteInput r.crane 9).noteLine
            r.crane := by
  have hsettle : ((s.updateCar (fun k => { k with work := .idle })).updateCtx r.crane
      (fun x => { x with aisle := .inAisle r.toAisle, position := some (0, 0) })).settleLocks r.crane r.toAisle none =
        (s.updateCar (fun k => { k with work := .idle })).setLine r.crane { s.line r.crane with
          ctx := { (s.line r.crane).ctx with
            aisle := .inAisle r.toAisle, position := some (0, 0), conflict := false } } := by
    rw [State.settleLocks_of_holder]
    · simp [State.updateCtx, State.updateLine]
    · exact hlock
    · exact hother
  simp only [State.alight, hsettle, State.line_setLine, Line.holdsTrip, htrip, Bool.false_eq_true, if_false]
  rw [State.serveQueue_of_empty]
  · rfl
  · exact hqueue

theorem State.takePhase_dockedFrom {s : State} {r : CurrentRequest} (hr : s.car.current = some r)
    (hx : s.car.exchange = none) (hwait : s.car.orderWaiting = false) (hwork : s.car.work = .fetching) :
    s.takePhase r.order .dockedFrom = { s with car := { s.car with work := .boarding } } := by
  rw [State.takePhase_next hr hx (by simp [hwork]) (by rw [hwork]; rfl)]
  exact State.sendWaitingCar_of_noneWaiting hwait

theorem State.takePhase_boarded {s : State} {r : CurrentRequest} (hr : s.car.current = some r)
    (hx : s.car.exchange = none) (hwait : s.car.orderWaiting = false) (hwork : s.car.work = .boarding)
    (hlock : s.holdsLock r.crane r.fromAisle = true) :
    s.takePhase r.order .boarded =
      (({ s with car := { s.car with work := .carrying } } : State).setAisle r.fromAisle
        { s.aisle r.fromAisle with lock := none }).tellDispatcher.setLine r.crane
          { s.line r.crane with ctx := { (s.line r.crane).ctx with aisle := .onCar } } := by
  have hrelease : (s.updateCar (fun k => { k with work := .carrying })).releaseLock r.crane r.fromAisle =
      ((s.updateCar (fun k => { k with work := .carrying })).setAisle r.fromAisle
        { s.aisle r.fromAisle with lock := none }).tellDispatcher := State.releaseLock_of_held hlock
  rw [State.takePhase_next hr hx (by simp [hwork]) (by rw [hwork]; rfl), State.applyPhase, hrelease]
  exact State.sendWaitingCar_of_noneWaiting hwait

theorem State.takePhase_alighted {s : State} {r : CurrentRequest} (hr : s.car.current = some r)
    (hx : s.car.exchange = none) (hwait : s.car.orderWaiting = false) (hwork : s.car.work = .alighting)
    (htrip : (s.line r.crane).trip = none) (hlock : s.holdsLock r.crane r.toAisle = true)
    (hother : ∀ a, a ≠ r.toAisle → s.holdsLock r.crane a = false) (hqueue : s.car.queue = []) :
    s.takePhase r.order .alighted = ((({ s with car := { s.car with
        work := .idle
        position := some r.toAisle
        jobTimer := none
        overdue := false
        current := none } } : State).setLine r.crane
      { s.line r.crane with ctx := { (s.line r.crane).ctx with
          aisle := .inAisle r.toAisle, position := some (0, 0), conflict := false } }).noteInput r.crane 9).noteLine
            r.crane := by
  rw [State.takePhase_next hr hx (by simp [hwork]) (by rw [hwork]; rfl), State.applyPhase,
    State.alight_of_noTrip htrip hlock hother hqueue, State.sendWaitingCar_of_noneWaiting rfl]
  simp only [hwait]

/-! ## CAR STATUS (R103, R110) -/

/-- The car's record when the fields of a CAR STATUS have been stored (R103). -/
def Car.reported (k : Car) (r : CarReport) : Car :=
  { k with
    link := .up
    mode := r.mode
    position := some r.position
    fault := r.fault
    orderInHand := r.order
    notReady := k.notReady && !(r.order == 0 && r.mode == .auto && !r.fault) }

theorem State.storeCarReport_plain {s : State} {r : CarReport} (h : r.fault = false ∨ s.car.fault = true) :
    s.storeCarReport r = { s with car := s.car.reported r } :=
  if_neg (by rcases h with h | h <;> simp [h])

theorem State.storeCarReport_fault {s : State} {r : CarReport} (hr : r.fault = true) (hs : s.car.fault = false) :
    s.storeCarReport r = ({ s with car := s.car.reported r } : State).raise .car :=
  if_pos (by simp [hr, hs])

theorem State.answerByReport_of_other {s : State} {r : CarReport} (h : s.car.isCurrent r.order = false) :
    s.answerByReport r = s := by simp only [State.answerByReport, h, Bool.false_eq_true, if_false]

theorem State.answerByReport_of_noPhase {s : State} {r : CarReport} (h : s.car.isCurrent r.order = true)
    (hp : r.lastPhase = none) : s.answerByReport r = s.answerCarOrder := by
  simp only [State.answerByReport, h, hp, if_true]

theorem State.reorder_of_noRequest {s : State} (h : s.car.current = none) (wasUp answered : Bool) :
    s.reorder wasUp answered = s := by simp [State.reorder, h]

theorem State.reorder_of_answered (s : State) (wasUp : Bool) : s.reorder wasUp true = s := by simp [State.reorder]

/-- On the car's return the CAR ORDER of its current request is sent again at once (R110). -/
theorem State.reorder_sends {s : State} {q : CurrentRequest} (hcurrent : s.car.current = some q)
    (hlink : s.car.link = .up) (hx : s.car.exchange = none) :
    s.reorder false false = { s with car := { s.car with
      orderWaiting := false
      exchange := some ⟨true, q.telegram, 0, s.settings.tack⟩
      sent := s.car.sent ++ [q.telegram] } } := by
  have hmarked : s.reorder false false = (s.updateCar (fun k => { k with orderWaiting := true })).sendWaitingCar := by
    simp [State.reorder, hcurrent]
  rw [hmarked, State.sendWaitingCar_sends (r := q)]
  exacts [rfl, hcurrent, rfl, hlink, hx]

/-- What a report comes to once its fields are stored, with no exchange open. -/
theorem State.takeCarStatus_of_stored {s w : State} {r : CarReport} (hx : s.car.exchange = none)
    (hw : s.storeCarReport r = w) :
    s.takeCarStatus r =
      ((w.answerByReport r).reorder (s.car.link == .up) (s.car.isCurrent r.order)).sendWaitingCar.serveQueue := by
  simp only [State.takeCarStatus, Car.pollOpen_of_noExchange hx, Bool.false_eq_true, if_false, hw]

/-- Without a current request the report serves the queue. -/
theorem State.takeCarStatus_of_noRequest {s w : State} {r : CarReport} (hx : s.car.exchange = none)
    (hw : s.storeCarReport r = w) (hcurrent : w.car.current = none) : s.takeCarStatus r = w.serveQueue := by
  rw [State.takeCarStatus_of_stored hx hw,
    State.answerByReport_of_other (Car.isCurrent_of_noRequest hcurrent r.order),
    State.reorder_of_noRequest hcurrent, State.sendWaitingCar_of_noRequest hcurrent]

/-- A report of the current request without a phase answers for it. -/
theorem State.takeCarStatus_answers {s : State} {r : CarReport} {q : CurrentRequest} (hx : s.car.exchange = none)
    (hcurrent : s.car.current = some q) (hwork : s.car.work = .ordering) (horder : r.order = q.order)
    (hphase : r.lastPhase = none) (hfault : r.fault = false) :
    s.takeCarStatus r = { s with car := { s.car.reported r with
      work := .fetching
      jobTimer := some 0
      orderWaiting := false } } := by
  have hnames : s.car.isCurrent r.order = true := by simp [Car.isCurrent_of_request hcurrent, horder]
  rw [State.takeCarStatus_of_stored hx (State.storeCarReport_plain (.inl hfault)), hnames, State.reorder_of_answered,
    State.answerByReport_of_noPhase (s := { s with car := s.car.reported r }) hnames hphase,
    State.answerCarOrder_of_noExchange (s := { s with car := s.car.reported r }) hx hwork,
    State.sendWaitingCar_of_noneWaiting rfl, State.serveQueue_of_mayNot]
  exact Car.mayServe_of_working (by simp)

/-- A report that brings back a car at work on a request that it does not name: the CAR ORDER is sent again. -/
theorem State.takeCarStatus_reorders {s : State} {r : CarReport} {q : CurrentRequest} (hx : s.car.exchange = none)
    (hcurrent : s.car.current = some q) (hlink : s.car.link ≠ .up) (hwork : s.car.work ≠ .idle)
    (horder : r.order ≠ q.order) (hfault : r.fault = false) :
    s.takeCarStatus r = { s with car := { s.car.reported r with
      orderWaiting := false
      exchange := some ⟨true, q.telegram, 0, s.settings.tack⟩
      sent := s.car.sent ++ [q.telegram] } } := by
  have hnames : s.car.isCurrent r.order = false := by simp [Car.isCurrent_of_request hcurrent, horder.symm]
  have hdown : (s.car.link == LinkState.up) = false := by simpa using hlink
  rw [State.takeCarStatus_of_stored hx (State.storeCarReport_plain (.inl hfault)), hnames, hdown,
    State.answerByReport_of_other (s := { s with car := s.car.reported r }) hnames,
    State.reorder_sends (s := { s with car := s.car.reported r }) hcurrent rfl hx,
    State.sendWaitingCar_of_noneWaiting rfl, State.serveQueue_of_mayNot]
  · rfl
  · exact Car.mayServe_of_working hwork

/-! ## Timers (R102, R109) -/

theorem State.expireCarAnswer_resends {s : State} {x : CarExchange} (hx : s.car.exchange = some x)
    (h : x.resends < s.settings.resendLimit) :
    s.expireCarAnswer = { s with car := { s.car with
      exchange := some { x with resends := x.resends + 1, period := s.settings.tack }
      sent := s.car.sent ++ [x.telegram] } } := by
  simp only [State.expireCarAnswer, hx, h, if_true]
  rfl

theorem State.expireCarAnswer_fails {s : State} {x : CarExchange} (hx : s.car.exchange = some x)
    (h : s.settings.resendLimit ≤ x.resends) :
    s.expireCarAnswer = ({ s with car := { s.car with
      link := .lost
      exchange := none
      orderWaiting := false
      silence := s.settings.pollInterval } } : State).raise .car := by
  simp only [State.expireCarAnswer, hx, Nat.not_lt.2 h, if_false]
  rfl

theorem State.pollCar_of_up {s : State} (hlink : s.car.link = .up) (hx : s.car.exchange = none) :
    s.pollCar = s.openCarExchange false .poll := by simp only [State.pollCar, hlink, hx, if_true]

theorem State.pollCar_of_notUp {s : State} (hlink : s.car.link ≠ .up) :
    s.pollCar = (s.sendCar .poll).restartCarSilence := by simp only [State.pollCar, hlink, if_false]

theorem State.expireCarJob_once {s : State} (h : s.car.overdue = false) :
    s.expireCarJob = (s.updateCar (fun k => { k with overdue := true })).raise .car := by
  simp only [State.expireCarJob, h, Bool.false_eq_true, if_false]

/-! ## The events -/

/-- A telegram other than CAR STATUS, while the link is UP. -/
theorem State.carTelegram_of_up {s : State} (h : s.car.link = .up) (f : State → State) :
    s.carTelegram f = f s.restartCarSilence := if_pos h

theorem exec_carNak {order reason : Byte} {k : CarRefusal} (h : readCarRefusal reason.toNat = some k) (s : State) :
    exec (.carNak order reason) s = .next (s.event (fun t => t.carTelegram (fun u => u.takeCarNak order.toNat k))) := by
  simp only [exec, execCarNak, State.receiveCarNak, h]

theorem exec_phase {order phase : Byte} {p : CarPhase} (h : readCarPhase phase.toNat = some p) (s : State) :
    exec (.phase order phase) s = .next (s.event (fun t => t.carTelegram (fun u => u.takePhase order.toNat p))) := by
  simp only [exec, execPhase, State.receivePhase, h]

theorem exec_carStatus {mode position fault order lastPhase : Byte} {r : CarReport}
    (h : readCarStatus mode position fault order lastPhase = some r) (s : State) :
    exec (.carStatus mode position fault order lastPhase) s =
      .next (s.event (fun t => t.restartCarSilence.takeCarStatus r)) := by
  simp only [exec, execCarStatus, State.receiveCarStatus, h]

theorem exec_carJobTimeout {s : State} {n : Nat} (hn : s.car.jobTimer = some n) (ho : s.car.overdue = false) :
    exec .carJobTimeout s = .next (s.event (fun t =>
      (t.updateCar (fun k => { k with jobTimer := some (max n (k.timeout * 10)) })).expireCarJob)) := by
  simp only [exec, execCarJobTimeout, hn, ho, Bool.false_eq_true, if_false]

/-- An event that notes a counter input and a line completes with the state that it makes besides. -/
theorem completes_of_noted {i : Instr} {s u : State} {f : State → State} {c d : Fin 8} {n : Nat}
    (he : exec i s = .next (s.event f)) (hf : f s = (u.noteInput c n).noteLine d) (hu : u.scratch = .empty) :
    Completes i s u := by
  refine completes_of_event i s u f he ?_ ?_ ?_
  · rw [hf]; exact ⟨congrArg Scratch.own hu, congrArg Scratch.collected hu⟩
  · rw [hf]; rfl
  · rw [hf]; exact State.Grows.refl u

end Sys2Proof.Machine
end

section
/-! The statements on the enabling of aisles and on the car. -/

namespace Sys2Proof.Machine

/-! ## SET AISLE ENABLE (R95) -/

/-- The record of a configured aisle, in the bytes of its reply. -/
theorem Aisle.put_of_enabled {r : Aisle} {e : Bool} (hg : r.geometry ≠ none) (he : r.enabled = some e) :
    r.put = [1, 1] ++ putFlag e ++ put1 (lockCode r.lock) ++ put2 r.occupied ++ put2 r.free := by
  have hsome : r.geometry.isSome = true := Option.isSome_iff_ne_none.2 hg
  simp only [Aisle.put, hsome, he, putOption]
  rfl

theorem State.enableAisle_trigger {s : State} {a : Fin 16} {e : Bool}
    (h : e = true ∧ (s.aisle a).enabled = some false) :
    s.enableAisle a e = (s.setAisle a { s.aisle a with enabled := some e }).tellDispatcher :=
  if_pos (by simp [h])

theorem State.enableAisle_plain {s : State} {a : Fin 16} {e : Bool}
    (h : ¬ (e = true ∧ (s.aisle a).enabled = some false)) :
    s.enableAisle a e = s.setAisle a { s.aisle a with enabled := some e } :=
  if_neg (by simpa using h)

theorem State.aisle_enableAisle (s : State) (a : Fin 16) (e : Bool) :
    (s.enableAisle a e).aisle a = { s.aisle a with enabled := some e } := by
  by_cases h : e = true ∧ (s.aisle a).enabled = some false
  · rw [State.enableAisle_trigger h, State.aisle_tellDispatcher, State.aisle_setAisle]
  · rw [State.enableAisle_plain h, State.aisle_setAisle]

theorem State.put_enableAisle {s : State} {a : Fin 16} (hg : (s.aisle a).geometry ≠ none) (e : Bool) :
    ((s.enableAisle a e).aisle a).put = [1, 1] ++ putFlag e ++ put1 (lockCode (s.aisle a).lock) ++
      put2 (s.aisle a).occupied ++ put2 (s.aisle a).free := by
  rw [State.aisle_enableAisle]
  exact Aisle.put_of_enabled (r := { s.aisle a with enabled := some e }) hg rfl

theorem State.serveAisleEnable_of_aisle {s : State} {b : List Byte} {a : Fin 16} {e : Bool} (ha : byteAt b 0 = a.val)
    (he : byteAt b 1 = e.toNat) : s.serveAisleEnable b =
      if (s.aisle a).geometry = none then refuse s .noSuchAisle
      else accept (s.enableAisle a e) (fun t => (t.aisle a).put) := by
  simp only [State.serveAisleEnable, readAisle_of_aisle a ha, readFlag_toNat he, Option.isNone_iff_eq_none]

/-- Settles O36: the owner refuses an aisle that is not configured, and of the others tells the Dispatcher by the change. -/
theorem aisleIsEnabled : Obligations.AisleIsEnabled := by
  intro n b a e s hlen ha he hturn
  have hrow : requestRow 0x50 = some (everyPhase 0x50 2) := by decide
  have hl := lengthAgrees_everyPhase hrow hlen
  have hp := admitted_everyPhase s.phase hrow
  have hserve := State.serveAisleEnable_of_aisle (s := s.popRequest) ha he
  have henabled (hg : (s.aisle a).geometry ≠ none) : exec (.setAisleEnable n b) s =
      .next ((s.popRequest.enableAisle a e).answer ⟨0x50, n, b⟩ .ok ([1, 1] ++ putFlag e ++
        put1 (lockCode (s.aisle a).lock) ++ put2 (s.aisle a).occupied ++ put2 (s.aisle a).free)) := by
    rw [exec_served rfl hturn hl hp (hserve.trans (if_neg hg)) rfl, State.put_enableAisle (s := s.popRequest) hg]
    rfl
  refine ⟨fun hg hchange => ?_, fun hg hchange => ?_, fun hg => ?_⟩
  · rw [henabled hg, State.enableAisle_trigger (s := s.popRequest) hchange]
    rfl
  · rw [henabled hg, State.enableAisle_plain (s := s.popRequest) hchange]
    rfl
  · exact exec_refused rfl hturn hl hp (hserve.trans (if_pos hg)) rfl

/-! ## SET CAR and RESTART CAR LINE (R112, R111) -/

theorem State.car_of_bare {s t : State} (h : s.bare = t.bare) : s.car = t.car := by
  show s.bare.car = t.bare.car
  rw [h]

/-- A request that its owner accepts, leaving a state `t` in which nothing has been gathered, completes with `t` and its
reply, when the reply's body reads the car alone. -/
theorem completes_of_carAccepted {i : Instr} {s t : State} {r : Request} {f : State → Served} {body : State → List Byte}
    {b : List Byte} (he : exec i s = .next (s.hostRequest r (fun t => t.handle r f))) (ht : s.hasTurn r)
    (hl : lengthAgrees r.code r.body = true) (hp : admitted r.code s.phase = true)
    (hv : f s.popRequest = accept t body) (hs : t.scratch = .empty)
    (hb : ∀ v : State, v.car = t.car → body v = b) : Completes i s (t.answer r .ok b) := by
  have hq : t.Quiet := ⟨congrArg Scratch.own hs, congrArg Scratch.collected hs⟩
  exact completes_of_handle i s _ r f _ b he ht hl hp hv rfl hq
    (hb _ (State.car_of_bare (State.finish_bare t s.popRequest hq))) rfl (State.Grows.refl t)

theorem carClamped_eq (b : List Byte) : carClamped b =
    decide (60000 < wordAt b 0 ∨ 30000 < wordAt b 2 ∨ wordAt b 4 < 10 ∨ 600 < wordAt b 4) := by
  simp only [carClamped, Bool.decide_or, Bool.or_assoc]

/-- SET CAR with no transfer running and the queue empty writes the car alone. -/
theorem State.serveSetCar_of_idle {s : State} {b : List Byte} (htimer : s.car.jobTimer = none)
    (hqueue : s.car.queue = []) : s.serveSetCar b =
      accept { s with car := s.car.configure b } (fun t =>
        putFlag (carClamped b) ++ put2 t.car.c0 ++ put2 t.car.c1 ++ put2 t.car.timeout) := by
  have hcheck : (s.updateCar (fun k => k.configure b)).checkCarJob = s.updateCar (fun k => k.configure b) := by
    simp only [State.checkCarJob, State.updateCar_car, Car.configure, htimer]
  have hserve : (s.updateCar (fun k => k.configure b)).serveQueue = s.updateCar (fun k => k.configure b) :=
    State.serveQueue_of_empty hqueue
  simp only [State.serveSetCar, hcheck, hserve]
  rfl

/-- Settles O37: SET CAR writes the car alone, and the end of the event leaves the car that its reply reads. -/
theorem carIsConfiguredAndRestarted : Obligations.CarIsConfiguredAndRestarted := by
  intro n b s hS
  refine ⟨fun hlen htimer hqueue hturn => ?_, fun hlen hturn => ?_⟩
  · have hrow : requestRow 0x52 = some (everyPhase 0x52 6) := by decide
    exact completes_of_carAccepted rfl hturn (lengthAgrees_everyPhase hrow hlen) (admitted_everyPhase _ hrow)
      (State.serveSetCar_of_idle (s := s.popRequest) htimer hqueue) hS.scratch
      (fun v hv => by rw [hv, carClamped_eq])
  · have hrow : requestRow 0x54 = some (everyPhase 0x54 0) := by decide
    exact completes_of_carAccepted (f := fun u => accept u.restartCar (fun _ => [])) rfl hturn
      (lengthAgrees_everyPhase hrow hlen) (admitted_everyPhase _ hrow) rfl hS.scratch (fun _ _ => rfl)

/-! ## CAR ACK and CAR NAK (R106, R107) -/

/-- Settles O38: the exchange closes before the answer takes effect; a refused request waits behind the not-ready mark. -/
theorem carOrderIsAnswered : Obligations.CarOrderIsAnswered := by
  intro order reason r x s hS hlink hcurrent horder hwork hx hxo hwait
  refine ⟨?_, fun t y k hk htrip hnumber hy hfault => ?_, fun t y hk htrip hnumber hy hfault => ?_⟩
  · have hack := State.takeCarAck_answers (s := s.restartCarSilence) hcurrent hx hxo hwork hwait
    rw [horder] at hack
    exact (completes_of_nothingGathered rfl ((State.carTelegram_of_up hlink _).trans hack) hS.scratch).1
  · have hnak := State.takeCarNak_plain (s := s.restartCarSilence) hcurrent hx hxo hwork hwait htrip hnumber hy hfault
    rw [horder] at hnak
    exact (completes_of_nothingGathered (exec_carNak hk s)
      ((State.carTelegram_of_up hlink _).trans hnak) hS.scratch).1
  · have hnak := State.takeCarNak_fault (s := s.restartCarSilence) hcurrent hx hxo hwork hwait htrip hnumber hy hfault
    rw [horder] at hnak
    exact (completes_of_nothingGathered (exec_carNak hk s)
      ((State.carTelegram_of_up hlink _).trans hnak) hS.scratch).1

/-! ## PHASE (R108) -/

/-- Settles O39: each phase is the next one of the current request; ALIGHTED notes a counter input and the crane's line. -/
theorem carPhasesAreApplied : Obligations.CarPhasesAreApplied := by
  intro order r s hS hlink hcurrent horder hx hwait
  refine ⟨fun hwork => ?_, fun hwork hlock => ?_, fun hwork htrip hlock hother hqueue => ?_⟩
  · have hphase := State.takePhase_dockedFrom (s := s.restartCarSilence) hcurrent hx hwait hwork
    rw [horder] at hphase
    exact (completes_of_nothingGathered (exec_phase rfl s)
      ((State.carTelegram_of_up hlink _).trans hphase) hS.scratch).1
  · have hphase := State.takePhase_boarded (s := s.restartCarSilence) hcurrent hx hwait hwork hlock
    rw [horder] at hphase
    exact (completes_of_nothingGathered (exec_phase rfl s)
      ((State.carTelegram_of_up hlink _).trans hphase) hS.scratch).1
  · have hphase := State.takePhase_alighted (s := s.restartCarSilence) hcurrent hx hwait hwork htrip hlock hother hqueue
    rw [horder] at hphase
    exact completes_of_noted (exec_phase rfl s) ((State.carTelegram_of_up hlink _).trans hphase) hS.scratch

/-! ## CAR STATUS (R103, R105, R110) -/

/-- The next order number runs from 1 to 255 and is not the order in hand; it is the one that follows unless that is in
hand (R105). -/
theorem nextOrderNumber_bounds (n inHand : Nat) :
    (1 ≤ nextOrderNumber n inHand ∧ nextOrderNumber n inHand ≤ 255) ∧ nextOrderNumber n inHand ≠ inHand ∧
      (n % 255 + 1 ≠ inHand → nextOrderNumber n inHand = n % 255 + 1) := by
  unfold nextOrderNumber
  dsimp only
  split <;> omega

/-- A report of AUTO without fault leaves an idle configured car ready, unless the not-ready mark stays on it. -/
theorem Car.mayServe_reported {k : Car} {r : CarReport} (hwork : k.work = .idle) (hconf : k.configured = true)
    (hmode : r.mode = .auto) (hfault : r.fault = false) (hready : k.notReady = false ∨ r.order = 0) :
    (k.reported r).mayServe = true := by
  rcases hready with h | h <;> simp [Car.mayServe, Car.reported, hwork, hconf, hmode, hfault, h]

/-- Settles O40: the report is stored first; it then serves the queue, sends the CAR ORDER again, or answers for it. -/
theorem carStatusIsStored : Obligations.CarStatusIsStored := by
  refine ⟨nextOrderNumber_bounds, ?_⟩
  intro mode position fault order lastPhase r s k hS hread hx hk
  obtain rfl : k = s.restartCarSilence.car.reported r := hk
  have hexec := exec_carStatus hread s
  refine ⟨fun hcurrent hqueue => ⟨fun hfault => ?_, fun hfault hclear => ?_⟩,
    fun e rest t y m hcurrent hqueue hwork hconf hmode hfault hready ht hy hm => ?_,
    fun q hcurrent hlink hwork horder hfault => ?_, fun q hcurrent hwork horder hphase hfault => ?_⟩
  · have htaken := State.takeCarStatus_of_noRequest (s := s.restartCarSilence) hx
      (State.storeCarReport_plain hfault) hcurrent
    exact (completes_of_nothingGathered hexec (htaken.trans (State.serveQueue_of_empty hqueue)) hS.scratch).1
  · have htaken := State.takeCarStatus_of_noRequest (s := s.restartCarSilence) hx
      (State.storeCarReport_fault hfault hclear) hcurrent
    exact (completes_of_nothingGathered hexec (htaken.trans (State.serveQueue_of_empty hqueue)) hS.scratch).1
  · have htaken := State.takeCarStatus_of_noRequest (s := s.restartCarSilence) hx
      (State.storeCarReport_plain (.inl hfault)) hcurrent
    have hmay := Car.mayServe_reported (k := s.restartCarSilence.car) hwork hconf hmode hfault hready
    exact (completes_of_nothingGathered hexec
      (htaken.trans (State.serveQueue_serves hqueue hmay rfl hx ht hy hm)) hS.scratch).1
  · have htaken := State.takeCarStatus_reorders (s := s.restartCarSilence) hx hcurrent hlink hwork horder hfault
    exact (completes_of_nothingGathered hexec htaken hS.scratch).1
  · have htaken := State.takeCarStatus_answers (s := s.restartCarSilence) hx hcurrent hwork horder hphase hfault
    exact (completes_of_nothingGathered hexec htaken hS.scratch).1

/-! ## The timers (R102, R109, R110) -/

/-- Settles O41: each expiry writes the car, and where the condition CAR comes about raises it, and gathers nothing. -/
theorem carTimersExpire : Obligations.CarTimersExpire := by
  intro s hS
  refine ⟨fun x hx hresends => ?_, fun x hx hresends => ?_, fun hlink hx => ?_, fun hlink => ?_, fun n hn hoverdue => ?_⟩
  · exact (completes_of_nothingGathered rfl (State.expireCarAnswer_resends hx hresends) hS.scratch).1
  · exact (completes_of_nothingGathered rfl (State.expireCarAnswer_fails hx hresends) hS.scratch).1
  · exact (completes_of_nothingGathered rfl (State.pollCar_of_up hlink hx) hS.scratch).1
  · exact (completes_of_nothingGathered rfl (State.pollCar_of_notUp hlink) hS.scratch).1
  · exact (completes_of_nothingGathered (exec_carJobTimeout hn hoverdue) (State.expireCarJob_once hoverdue) hS.scratch).1

end Sys2Proof.Machine
end

section
/-! Rules for the Crane Line Controllers (Chapters 6 to 8): what each of their operations does to its line, as one write of
the line, and what an event on a line completes with. -/

namespace Sys2Proof.Machine

/-! ## Events -/

/-- An event that notes inputs and lines, and no job, completes with the state that it makes besides. -/
theorem completes_of_gathered {i : Instr} {s u : State} {f : State → State} {x : Scratch}
    (he : exec i s = .next (s.event f)) (hf : f s = { u with scratch := x }) (hown : x.own = [])
    (hcollected : x.collected = []) : Completes i s u := by
  refine completes_of_event i s u f he ?_ ?_ ?_
  · rw [hf]; exact ⟨hown, hcollected⟩
  · rw [hf]; rfl
  · rw [hf]; exact State.Grows.refl u

/-! ## Telegrams and exchanges (R118, R119, R120) -/

theorem State.restartSilence_eq (s : State) (c : Fin 8) :
    s.restartSilence c = s.setLine c { s.line c with silence := s.settings.pollInterval } := rfl

theorem State.send_eq (s : State) (c : Fin 8) (t : Telegram) :
    s.send c t = s.setLine c { s.line c with sent := (s.line c).sent ++ [t] } := rfl

theorem State.openExchange_eq (s : State) (c : Fin 8) (k : ExchangeKind) (t : Telegram) :
    s.openExchange c k t = s.setLine c { s.line c with
      exchange := some ⟨k, t, 0, s.settings.tack⟩, sent := (s.line c).sent ++ [t] } := by
  simp [State.openExchange, State.send_eq, State.updateLine]

theorem State.closeExchange_eq (s : State) (c : Fin 8) : s.closeExchange c =
    s.setLine c { s.line c with exchange := none, silence := s.settings.pollInterval } := by
  simp [State.closeExchange, State.restartSilence_eq, State.updateLine]

theorem State.dropExchanges_eq (s : State) (c : Fin 8) : s.dropExchanges c =
    s.setLine c { s.line c with exchange := none, silence := s.settings.pollInterval, stale := [] } := by
  simp [State.dropExchanges, State.closeExchange_eq, State.updateLine]

theorem State.dropTrip_eq (s : State) (c : Fin 8) : s.dropTrip c =
    s.setLine c { s.line c with trip := none, ctx := { (s.line c).ctx with work := .idle } } := rfl

theorem Line.tripToOrder_of_noTrip {l : Line} (h : l.trip = none) : l.tripToOrder = none := by
  simp only [Line.tripToOrder, h]

theorem Line.tripToOrder_of_accepted {l : Line} {t : Trip} (h : l.trip = some t) (ha : t.accepted = true) :
    l.tripToOrder = none := by simp [Line.tripToOrder, h, ha]

theorem Line.legToCancel_of_noTrip {l : Line} (h : l.trip = none) : l.legToCancel = none := by
  simp only [Line.legToCancel, h]

theorem Line.legToCancel_of_noneWanted {l : Line} {t : Trip} (h : l.trip = some t)
    (hlegs : ∀ g ∈ t.legs, g.wantsCancel = false) : l.legToCancel = none := by
  have hfind : t.legs.find? Leg.wantsCancel = none := List.find?_eq_none.2 fun g hg => by simp [hlegs g hg]
  simp [Line.legToCancel, h, hfind]

theorem Line.nothingWaits_iff (l : Line) :
    l.nothingWaits = true ↔ l.tripToOrder = none ∧ l.stale = [] ∧ l.legToCancel = none := by
  simp [Line.nothingWaits, and_assoc]

/-- A crane without a trip and without stale cancels has nothing waiting. -/
theorem Line.nothingWaits_of_noTrip {l : Line} (h : l.trip = none) (hstale : l.stale = []) : l.nothingWaits = true :=
  l.nothingWaits_iff.2 ⟨Line.tripToOrder_of_noTrip h, hstale, Line.legToCancel_of_noTrip h⟩

theorem Line.nothingWaits_of_accepted {l : Line} {t : Trip} (h : l.trip = some t) (ha : t.accepted = true)
    (hlegs : ∀ g ∈ t.legs, g.wantsCancel = false) (hstale : l.stale = []) : l.nothingWaits = true :=
  l.nothingWaits_iff.2 ⟨Line.tripToOrder_of_accepted h ha, hstale, Line.legToCancel_of_noneWanted h hlegs⟩

/-- With nothing waiting nothing is sent. -/
theorem State.sendWaiting_of_nothing {s : State} {c : Fin 8} (h : (s.line c).nothingWaits = true) :
    s.sendWaiting c = s := by
  obtain ⟨horder, hstale, hcancel⟩ := (Line.nothingWaits_iff _).1 h
  simp only [State.sendWaiting, horder, hstale, hcancel, ite_self]

/-- A telegram other than PAGE, while the link is UP. -/
theorem State.craneTelegram_of_up {s : State} {c : Fin 8} (h : (s.line c).link = .up) (f : State → State) :
    s.craneTelegram c f = ((f (s.restartSilence c)).sendWaiting c).noteLine c := by
  have hlink : ((s.restartSilence c).line c).link = .up := by
    rw [State.restartSilence_eq, State.line_setLine]; exact h
  simp only [State.craneTelegram, hlink]

/-! ## Trips that are dropped or stranded (R153, R162) -/

theorem State.strandTrip_of_noTrip {s : State} {c : Fin 8} (h : (s.line c).trip = none) : s.strandTrip c = s := by
  simp only [State.strandTrip, h]

theorem Trip.openJobs_one {t : Trip} {k i : Nat} {w v : Bool} (h : t.legs = [⟨k, i, false, w, v⟩]) :
    t.openJobs = [i] := by simp [Trip.openJobs, h]

theorem State.enterStranded_of_job {s : State} {i : Nat} {j : Job} (h : s.job i = some j) :
    s.enterStranded i = (s.setJob i { j with state := .stranded }).raise .stranded := by
  rw [State.enterStranded, State.updateJob_of_job h]

/-- The one open leg of a trip without transfer is stranded with its trip. -/
theorem State.strandTrip_one {s : State} {c : Fin 8} {t : Trip} {k i : Nat} {j : Job} {w v : Bool}
    (ht : (s.line c).trip = some t) (hx : t.transfer = none) (hlegs : t.legs = [⟨k, i, false, w, v⟩])
    (hj : s.job i = some j) :
    s.strandTrip c = ((s.setJob i { j with state := .stranded }).raise .stranded).setLine c { s.line c with
      trip := none, ctx := { (s.line c).ctx with work := .idle } } := by
  simp only [State.strandTrip, ht, Trip.openJobs_one hlegs, List.foldl_cons, List.foldl_nil,
    State.enterStranded_of_job hj, State.strandTransfer, hx, State.dropTrip_eq]
  rfl

theorem State.endTransfer_of_none {t : Trip} (h : t.transfer = none) (s : State) (c : Fin 8) :
    s.endTransfer c t = s := by simp only [State.endTransfer, h]

end Sys2Proof.Machine
end

section
/-! The statements on the settings, the restart and the timers of the crane lines. -/

namespace Sys2Proof.Machine

/-! ## SET LINES (R133) -/

theorem settingsClamped_eq (b : List Byte) : settingsClamped b =
    decide (wordAt b 0 < 50 ∨ 2000 < wordAt b 0 ∨ 7 < byteAt b 2 ∨ wordAt b 3 < 200 ∨ 10000 < wordAt b 3) := by
  simp only [settingsClamped, Bool.decide_or, Bool.or_assoc]

/-- Settles O42: the settings alone are written, and the reply reads them. -/
theorem lineSettingsAreWritten : Obligations.LineSettingsAreWritten := by
  intro n b s hlen hturn
  have hrow : requestRow 0x60 = some (everyPhase 0x60 5) := by decide
  have hexec := exec_served (i := .setLines n b) (f := State.serveSetLines b) rfl hturn
    (lengthAgrees_everyPhase hrow hlen) (admitted_everyPhase s.phase hrow) rfl rfl
  rw [hexec, settingsClamped_eq]
  simp only [LineSettings.put, readSettings, clampTo, ← List.append_assoc]

/-! ## Silence (R120) -/

theorem Leg.wantsCancel_eq_false {g : Leg} (h : g.cancelWanted = false ∨ g.cancelSent = true ∨ g.finished = true) :
    g.wantsCancel = false := by
  rcases h with h | h | h <;> simp [Leg.wantsCancel, h]

theorem exec_pollIntervalExpiry (c : Fin 8) (s : State) :
    exec (.pollIntervalExpiry c) s = .next (s.event (fun t => t.pollCrane c)) := rfl

theorem State.pollCrane_of_up {s : State} {c : Fin 8} (hlink : (s.line c).link = .up)
    (hx : (s.line c).exchange = none) (hwaits : (s.line c).nothingWaits = true) :
    s.pollCrane c = s.openExchange c .poll .poll := by simp [State.pollCrane, hlink, hx, hwaits]

theorem State.pollCrane_of_down {s : State} {c : Fin 8} (h : (s.line c).link = .absent ∨ (s.line c).link = .lost) :
    s.pollCrane c = s.setLine c { s.line c with
      silence := s.settings.pollInterval, sent := (s.line c).sent ++ [Telegram.poll] } := by
  have hpoll : (s.send c .poll).restartSilence c = s.setLine c { s.line c with
      silence := s.settings.pollInterval, sent := (s.line c).sent ++ [Telegram.poll] } := by
    simp [State.send_eq, State.restartSilence_eq]
  rcases h with h | h <;> simp only [State.pollCrane, h, hpoll]

theorem State.pollCrane_of_introducing {s : State} {c : Fin 8} (h : (s.line c).link = .introducing) :
    s.pollCrane c = s := by simp only [State.pollCrane, h]

/-- Settles O53: the POLL by link state, an UP crane having nothing waiting. -/
theorem silenceSendsPoll : Obligations.SilenceSendsPoll := by
  intro c s hS
  refine ⟨fun hlink hx hstale htrip => ?_, fun hlink => ?_, fun hlink => ?_⟩
  · have hwaits : (s.line c).nothingWaits = true := by
      cases ht : (s.line c).trip with
      | none => exact Line.nothingWaits_of_noTrip ht hstale
      | some t =>
        obtain ⟨haccepted, hlegs⟩ := htrip t ht
        exact Line.nothingWaits_of_accepted ht haccepted (fun g hg => Leg.wantsCancel_eq_false (hlegs g hg)) hstale
    exact (completes_of_nothingGathered (exec_pollIntervalExpiry c s)
      ((State.pollCrane_of_up hlink hx hwaits).trans (State.openExchange_eq ..)) hS.scratch).1
  · exact (completes_of_nothingGathered (exec_pollIntervalExpiry c s) (State.pollCrane_of_down hlink) hS.scratch).1
  · exact congrArg Host.Outcome.next (State.event_id s _ hS (State.pollCrane_of_introducing hlink))

/-! ## The answer timer (R118, R130) -/

theorem exec_answerTimerExpiry {c : Fin 8} {s : State} {x : Exchange} (h : (s.line c).exchange = some x) :
    exec (.answerTimerExpiry c) s = .next (s.event (fun t => t.expireAnswer c x)) := by
  simp only [exec, execAnswerTimerExpiry, h]

theorem State.expireAnswer_resends {s : State} {c : Fin 8} {x : Exchange} (h : x.resends < s.settings.resendLimit) :
    s.expireAnswer c x = (s.setLine c { s.line c with
      exchange := some { x with resends := x.resends + 1, period := s.settings.tack }
      sent := (s.line c).sent ++ [x.telegram] }).noteInput c 6 := by
  simp [State.expireAnswer, h, State.send_eq, State.updateLine]

theorem State.expireAnswer_fails {s : State} {c : Fin 8} {x : Exchange} (h : s.settings.resendLimit ≤ x.resends) :
    s.expireAnswer c x = s.loseLink c := if_neg (Nat.not_lt.2 h)

/-- A failed exchange of a crane without a trip. -/
theorem State.loseLink_of_noTrip {s : State} {c : Fin 8} (h : (s.line c).trip = none) :
    s.loseLink c = (s.setLine c { s.line c with
      link := .lost, exchange := none, stale := [], silence := s.settings.pollInterval }).raise .craneLost := by
  have hnone : ((s.dropExchanges c).line c).trip = none := by rw [State.dropExchanges_eq, State.line_setLine]; exact h
  rw [State.loseLink, State.strandTrip_of_noTrip hnone]
  simp [State.dropExchanges_eq, State.setLink, State.updateLine]

/-- A failed exchange of a crane with a trip of one open leg and no transfer. -/
theorem State.loseLink_one {s : State} {c : Fin 8} {t : Trip} {k i : Nat} {j : Job} {w v : Bool}
    (ht : (s.line c).trip = some t) (hx : t.transfer = none) (hlegs : t.legs = [⟨k, i, false, w, v⟩])
    (hj : s.job i = some j) :
    s.loseLink c = (((s.setJob i { j with state := .stranded }).raise .stranded).setLine c { s.line c with
      link := .lost
      exchange := none
      stale := []
      silence := s.settings.pollInterval
      trip := none
      ctx := { (s.line c).ctx with work := .idle } }).raise .craneLost := by
  have ht' : ((s.dropExchanges c).line c).trip = some t := by rw [State.dropExchanges_eq, State.line_setLine]; exact ht
  have hj' : (s.dropExchanges c).job i = some j := by rw [State.dropExchanges_eq, State.job_setLine]; exact hj
  rw [State.loseLink, State.strandTrip_one ht' hx hlegs hj']
  simp [State.dropExchanges_eq, State.setLink, State.updateLine]

/-- Settles O52: below the limit a resend, at it the loss of the link with what it strands. -/
theorem answerTimerResendsOrLosesTheLink : Obligations.AnswerTimerResendsOrLosesTheLink := by
  intro c s hS
  refine ⟨fun x hx hbelow => ?_, fun x hx hlimit htrip => ?_, fun x t i j w v hx hlimit htrip hnone hlegs hj => ?_,
    fun hx => ?_⟩
  · exact completes_of_gathered (exec_answerTimerExpiry hx) (State.expireAnswer_resends hbelow)
      (congrArg Scratch.own hS.scratch) (congrArg Scratch.collected hS.scratch)
  · exact (completes_of_nothingGathered (exec_answerTimerExpiry hx)
      ((State.expireAnswer_fails hlimit).trans (State.loseLink_of_noTrip htrip)) hS.scratch).1
  · exact (completes_of_nothingGathered (exec_answerTimerExpiry hx)
      ((State.expireAnswer_fails hlimit).trans (State.loseLink_one htrip hnone hlegs hj)) hS.scratch).1
  · simp only [exec, execAnswerTimerExpiry, hx]

end Sys2Proof.Machine
end

section
/-! The statements on the restart of a crane line and on the introduction of a crane. -/

namespace Sys2Proof.Machine

/-! ## A crane taken off its link -/

/-- Writing over a record leaves the others in the list. -/
theorem mem_insertKey_of_mem {α : Type} {k : Nat} {v w : α} {l : List (Nat × α)} (h : lookup k l = some w)
    {e : Nat × α} (he : e ∈ l) : e ∈ insertKey k v l ∨ e = (k, w) := by
  induction l with
  | nil => cases he
  | cons x rest ih =>
    obtain ⟨m, y⟩ := x
    simp only [insertKey]
    split
    · exact .inl (List.mem_cons_of_mem _ he)
    · split
      · next hk =>
        subst hk
        obtain rfl : y = w := by simpa [lookup] using h
        rcases List.mem_cons.1 he with rfl | he
        · exact .inr rfl
        · exact .inl (List.mem_cons_of_mem _ he)
      · next hk =>
        rcases List.mem_cons.1 he with rfl | he
        · exact .inl List.mem_cons_self
        · exact (ih (by simpa [lookup, hk] using h) he).imp_left (List.mem_cons_of_mem _)

theorem Job.strandedOn_stranded {j : Job} {c : Fin 8} (h : j.strandedOn c = true) :
    ({ j with state := .stranded } : Job).strandedOn c = true := by
  simp only [Job.strandedOn, Bool.and_eq_true] at h ⊢
  exact ⟨rfl, h.2⟩

/-- Stranding a job leaves every STRANDED job of a trip STRANDED on it. -/
theorem State.strandedTrip_of_stranding {s : State} {i : Nat} {j : Job} (hj : s.job i = some j) {c : Fin 8} {n : Nat}
    (h : (s.setJob i { j with state := .stranded }).strandedTrip c n = []) : s.strandedTrip c n = [] := by
  have hnone := List.filter_eq_nil_iff.1 (List.map_eq_nil_iff.1 h)
  refine congrArg (List.map Prod.fst) (List.filter_eq_nil_iff.2 fun e he hon => ?_)
  rcases mem_insertKey_of_mem (v := { j with state := .stranded }) hj he with hkept | rfl
  · exact hnone e hkept hon
  · have hnew : (i, { j with state := .stranded }) ∈ insertKey i { j with state := .stranded } s.jobs :=
      mem_of_lookup _ _ _ (lookup_insertKey_self ..)
    simp only [Bool.and_eq_true] at hon
    exact hnone _ hnew (Bool.and_eq_true_iff.2 ⟨Job.strandedOn_stranded hon.1, hon.2⟩)

/-! ## RESTART LINE (R134) -/

theorem State.restartLine_of_noTrip {s : State} {c : Fin 8} (h : (s.line c).trip = none) :
    s.restartLine c = s.setLine c { s.line c with
      link := .absent
      exchange := none
      stale := []
      silence := s.settings.pollInterval
      introTimer := none
      notReady := false
      reconcileDue := false
      strandedCheck := false
      sent := (s.line c).sent ++ [Telegram.restart] } := by
  simp [State.restartLine, State.strandTrip_of_noTrip h, State.dropExchanges_eq, State.send_eq, State.updateLine]

theorem State.restartLine_one {s : State} {c : Fin 8} {t : Trip} {k i : Nat} {j : Job} {w v : Bool}
    (ht : (s.line c).trip = some t) (hx : t.transfer = none) (hlegs : t.legs = [⟨k, i, false, w, v⟩])
    (hj : s.job i = some j) :
    s.restartLine c = ((s.setJob i { j with state := .stranded }).raise .stranded).setLine c { s.line c with
      link := .absent
      exchange := none
      stale := []
      silence := s.settings.pollInterval
      introTimer := none
      notReady := false
      reconcileDue := false
      strandedCheck := false
      trip := none
      ctx := { (s.line c).ctx with work := .idle }
      sent := (s.line c).sent ++ [Telegram.restart] } := by
  simp [State.restartLine, State.strandTrip_one ht hx hlegs hj, State.dropExchanges_eq, State.send_eq,
    State.updateLine]

/-- RESTART LINE ends with the conditions taken afresh when what it makes of the line makes no state input hold. -/
theorem exec_restartLine {n : Byte} {b : List Byte} {c : Fin 8} {s u : State} (hlen : b.length = 1)
    (hc : byteAt b 0 = c.val) (hturn : s.hasTurn ⟨0x61, n, b⟩) (hu : s.popRequest.restartLine c = u)
    (hscratch : u.scratch = .empty) (hinputs : ∀ d m, u.inputHolds d m = true → s.popRequest.inputHolds d m = true) :
    exec (.restartLine n b) s = .next (u.takeConditions.answer ⟨0x61, n, b⟩ .ok []) := by
  have hrow : requestRow 0x61 = some (everyPhase 0x61 1) := by decide
  have hserve : s.popRequest.serveRestartLine b = accept u (fun _ => []) := by
    simp only [State.serveRestartLine, readCrane_of_crane c hc, hu]
  have hfinish : u.finish s.popRequest = u.takeConditions := by
    rw [State.finish_plain u s.popRequest ⟨congrArg Scratch.own hscratch, congrArg Scratch.collected hscratch⟩
      (congrArg Scratch.inputs hscratch) hinputs, State.scratch_cleared u hscratch]
  have hhandle := State.handle_ok s.popRequest ⟨0x61, n, b⟩ (State.serveRestartLine b) _
    (lengthAgrees_everyPhase hrow hlen) (admitted_everyPhase _ hrow) hserve rfl
  rw [show exec (.restartLine n b) s = .next (s.hostRequest ⟨0x61, n, b⟩
    (fun t => t.handle ⟨0x61, n, b⟩ (State.serveRestartLine b))) from rfl, State.hostRequest_of_turn _ _ _ hturn, hhandle]
  simp only [accept, hfinish]

/-- Settles O43: an ABSENT crane is not eligible, and more STRANDED jobs make no other crane eligible. -/
theorem restartedLineStrandsItsTrip : Obligations.RestartedLineStrandsItsTrip := by
  intro n b c s hS hlen hc hturn
  refine ⟨fun htrip => ?_, fun t i j htrip hnone ⟨w, v, hlegs⟩ hj => ?_⟩
  · refine exec_restartLine hlen hc hturn (State.restartLine_of_noTrip (s := s.popRequest) htrip) hS.scratch ?_
    refine State.inputHolds_offline _ s.popRequest c (fun d hd => State.line_setLine_ne _ _ _ _ hd) ?_ ?_ ?_ ?_
      rfl rfl rfl id (fun _ _ => id) <;> rw [State.line_setLine]
    · exact LinkState.noConfusion
    · exact id
    · exact id
    · exact id
  · refine exec_restartLine hlen hc hturn (State.restartLine_one (s := s.popRequest) htrip hnone hlegs hj) hS.scratch ?_
    refine State.inputHolds_offline _ s.popRequest c (fun d hd => State.line_setLine_ne _ _ _ _ hd) ?_ ?_ ?_ ?_
      rfl rfl rfl id (fun _ _ => State.strandedTrip_of_stranding hj) <;> rw [State.line_setLine]
    · exact LinkState.noConfusion
    · exact WorkState.noConfusion
    · exact id
    · exact id

/-! ## Base pages (R121, R137) -/

/-- A base page with its more flag set, from a crane without a trip. -/
theorem State.takeBasePage_of_noTrip {s : State} {c : Fin 8} (h : (s.line c).trip = none) (dual : Bool)
    (content : BitVec 64) : s.takeBasePage c true dual content = s.setLine c { s.line c with
      link := .introducing
      introTimer := some 5000
      pagesTaken := 0
      lastToggle := false
      notReady := false
      exchange := none
      stale := []
      silence := s.settings.pollInterval
      sent := (s.line c).sent ++ [Telegram.pageAck false]
      ctx := (s.line c).ctx.basePage content dual } := by
  have hnone : ((s.restartSilence c).line c).trip = none := by rw [State.restartSilence_eq, State.line_setLine]; exact h
  rw [State.takeBasePage, State.strandTrip_of_noTrip hnone]
  simp [State.restartSilence_eq, State.dropExchanges_eq, State.send_eq, State.updateLine, Config.introductionPeriod]

theorem exec_basePage {c : Fin 8} {content : BitVec 64} {dual : Bool} (h : readFlag (pageByte content 3) = some dual)
    (more : Bool) (s : State) : exec (.basePage c more content) s =
      .next (s.event (fun t => (t.takeBasePage c more dual content).noteLine c)) := by
  simp only [exec, execBasePage, State.receiveBasePage, h]

/-- Settles O44: an INTRODUCING crane is not eligible, and the context loses faults and aisle. -/
theorem basePageStartsIntroduction : Obligations.BasePageStartsIntroduction := by
  intro c content dual s hS htrip hdual
  refine (exec_basePage hdual true s).trans (congrArg Host.Outcome.next (State.event_plain s _ _ ?_ ?_ ?_ ?_))
  · rw [State.takeBasePage_of_noTrip htrip]
    exact ⟨congrArg Scratch.own hS.scratch, congrArg Scratch.collected hS.scratch⟩
  · rw [State.takeBasePage_of_noTrip htrip]
    exact congrArg Scratch.inputs hS.scratch
  · rw [State.takeBasePage_of_noTrip htrip]
    exact State.scratch_cleared (s.setLine c _) hS.scratch
  · refine State.inputHolds_offline _ s c (fun d hd => State.line_setLine_ne _ _ _ _ hd) ?_ ?_ ?_ ?_
      rfl rfl rfl id (fun _ _ => id) <;> rw [State.line_setLine]
    · exact LinkState.noConfusion
    · exact id
    · simp only [Context.faulted, Bool.or_eq_true]
      rintro (((hactive | hlatched) | hconflict) | hnak)
      · cases hactive
      · exact .inl (.inl (.inr hlatched))
      · exact .inl (.inr hconflict)
      · cases hnak
    · exact CraneAisle.noConfusion

/-! ## Next pages (R122, R123, R124) -/

theorem exec_nextPage (c : Fin 8) (toggle more : Bool) (content : BitVec 64) (s : State) :
    exec (.nextPage c toggle more content) s =
      .next (s.event (fun t => if ((t.restartSilence c).line c).link = .introducing
        then ((t.restartSilence c).takeNextPage c toggle more content).noteLine c else t.restartSilence c)) := rfl

/-- A next page taken while INTRODUCING completes with what it does. -/
theorem completes_nextPage {c : Fin 8} {toggle more : Bool} {content : BitVec 64} {s u : State}
    (hlink : (s.line c).link = .introducing) (hu : u.scratch = .empty)
    (htaken : (s.restartSilence c).takeNextPage c toggle more content = u) :
    Completes (.nextPage c toggle more content) s u := by
  refine completes_of_gathered (x := (u.noteLine c).scratch) (exec_nextPage c toggle more content s) ?_
    (congrArg Scratch.own hu) (congrArg Scratch.collected hu)
  have hlink' : ((s.restartSilence c).line c).link = .introducing := by
    rw [State.restartSilence_eq, State.line_setLine]; exact hlink
  rw [if_pos hlink', htaken]
  rfl

theorem State.takeNextPage_repeated {s : State} {c : Fin 8} {toggle : Bool} (h : toggle = (s.line c).lastToggle)
    (more : Bool) (content : BitVec 64) :
    s.takeNextPage c toggle more content = s.send c (.pageAck toggle) := by
  simp only [State.takeNextPage, h, if_true]

/-- The new page at place 1, more pages following. -/
theorem State.takeNextPage_first {s : State} {c : Fin 8} {toggle : Bool} (h : toggle ≠ (s.line c).lastToggle)
    (hplace : (s.line c).pagesTaken = 0) (content : BitVec 64) :
    s.takeNextPage c toggle true content = s.setLine c { s.line c with
      ctx := (s.line c).ctx.nextPage 1 content
      pagesTaken := 1
      lastToggle := toggle
      sent := (s.line c).sent ++ [Telegram.pageAck toggle] } := by
  simp [State.takeNextPage, h, hplace, State.send_eq, State.updateLine]

/-- The new page at place 2, the last one. -/
theorem State.takeNextPage_last {s : State} {c : Fin 8} {toggle : Bool} (h : toggle ≠ (s.line c).lastToggle)
    (hplace : (s.line c).pagesTaken = 1) (content : BitVec 64) :
    s.takeNextPage c toggle false content = (s.setLine c { s.line c with
      link := .up
      introTimer := none
      reconcileDue := true
      strandedCheck := true
      silence := s.settings.pollInterval
      sent := (s.line c).sent ++ [Telegram.pageAck toggle]
      pagesTaken := 2
      lastToggle := toggle
      ctx := { (s.line c).ctx.nextPage 2 content with work := .idle } }).raise .intro := by
  simp [State.takeNextPage, h, hplace, State.send_eq, State.updateLine, State.completeIntroduction,
    State.restartSilence_eq]

theorem Context.nextPage_timing (x : Context) (content : BitVec 64) : x.nextPage 1 content = { x with
    h := some (max 10 (min 2000 (pageWord content 0)))
    v := some (max 10 (min 5000 (pageWord content 2)))
    a := some (min 10000 (pageWord content 4))
    clamped := x.clamped ||
      decide (pageWord content 0 < 10 ∨ 2000 < pageWord content 0 ∨ pageWord content 2 < 10 ∨
        5000 < pageWord content 2 ∨ 10000 < pageWord content 4) } := by
  simp [Context.nextPage, clampPage, clampTo, Bool.or_assoc]

theorem Context.nextPage_forks (x : Context) (content : BitVec 64) : x.nextPage 2 content = { x with
    fF := some (max 1000 (min 30000 (pageWord content 0)))
    fR := some (max 1000 (min 40000 (pageWord content 2)))
    classes := some (BitVec.ofNat 16 (pageWord content 4))
    clamped := x.clamped ||
      decide (pageWord content 0 < 1000 ∨ 30000 < pageWord content 0 ∨ pageWord content 2 < 1000 ∨
        40000 < pageWord content 2) } := by
  simp [Context.nextPage, clampPage, clampTo, Bool.or_assoc]

theorem exec_introductionTimerExpiry {c : Fin 8} {s : State} (h : (s.line c).link = .introducing) :
    exec (.introductionTimerExpiry c) s = .next (s.event (fun t => t.failIntroduction c)) := by
  simp only [exec, execIntroductionTimerExpiry, h, if_true]

theorem State.failIntroduction_eq (s : State) (c : Fin 8) : s.failIntroduction c = s.setLine c { s.line c with
    link := .absent
    introTimer := none
    reconcileDue := false
    strandedCheck := false
    sent := (s.line c).sent ++ [Telegram.restart] } := by
  simp [State.failIntroduction, State.send_eq, State.updateLine]

/-- Settles O45: the page by its toggle and place, and the introduction that fails. -/
theorem nextPagesCompleteIntroduction : Obligations.NextPagesCompleteIntroduction := by
  intro c toggle more content s hS hlink
  have hrestart : (s.restartSilence c).line c = { s.line c with silence := s.settings.pollInterval } := by
    rw [State.restartSilence_eq, State.line_setLine]
  refine ⟨fun hsame => ?_, fun hnew hplace hmore => ?_, fun hnew hplace hlast => ?_, ?_⟩
  · refine completes_nextPage hlink hS.scratch ((State.takeNextPage_repeated ?_ more content).trans ?_)
    · rw [hrestart]; exact hsame
    · simp [State.send_eq, State.restartSilence_eq]
  · subst hmore
    refine completes_nextPage hlink hS.scratch ((State.takeNextPage_first ?_ ?_ content).trans ?_)
    · rw [hrestart]; exact hnew
    · rw [hrestart]; exact hplace
    · simp only [Context.nextPage_timing, State.restartSilence_eq, State.line_setLine, State.setLine_setLine]
  · subst hlast
    refine completes_nextPage hlink hS.scratch ((State.takeNextPage_last ?_ ?_ content).trans ?_)
    · rw [hrestart]; exact hnew
    · rw [hrestart]; exact hplace
    · simp only [Context.nextPage_forks, State.restartSilence_eq, State.line_setLine, State.setLine_setLine,
        State.setLine_settings]
  · exact (completes_of_nothingGathered (exec_introductionTimerExpiry hlink) (State.failIntroduction_eq s c)
      hS.scratch).1

end Sys2Proof.Machine
end

section
/-! The statements on the answers to an ORDER and to a CANCEL. -/

namespace Sys2Proof.Machine

/-! ## Telegrams taken while UP (R116) -/

/-- The counter inputs `x` have occurred in the event (R148). -/
def State.noting (s : State) (x : List (Fin 8 × Nat)) : State :=
  { s with scratch := { s.scratch with inputs := s.scratch.inputs ++ x } }

theorem State.noteInput_eq_noting (s : State) (c : Fin 8) (n : Nat) : s.noteInput c n = s.noting [(c, n)] := rfl

@[simp] theorem State.noting_nil (s : State) : s.noting [] = s := by simp [State.noting]

@[simp] theorem State.line_noting (s : State) (x : List (Fin 8 × Nat)) (c : Fin 8) : (s.noting x).line c = s.line c := rfl

@[simp] theorem State.line_restartSilence (s : State) (c : Fin 8) :
    (s.restartSilence c).line c = { s.line c with silence := s.settings.pollInterval } := by
  rw [State.restartSilence_eq, State.line_setLine]

/-- What a telegram does to its line overwrites the silence timer's start, when it starts the timer itself. -/
@[simp] theorem State.setLine_restartSilence (s : State) (c : Fin 8) (l : Line) :
    (s.restartSilence c).setLine c l = s.setLine c l := by rw [State.restartSilence_eq, State.setLine_setLine]

/-- A telegram taken while UP that notes no job, and lets nothing go that waits, completes with the state that it makes
besides. -/
theorem completes_craneTelegram {i : Instr} {c : Fin 8} {s u : State} {f : State → State} {x : List (Fin 8 × Nat)}
    (he : exec i s = .next (s.event (fun t => t.craneTelegram c f))) (hlink : (s.line c).link = .up)
    (hf : f (s.restartSilence c) = u.noting x) (hu : u.scratch = .empty) (hwaits : (u.line c).nothingWaits = true) :
    Completes i s u := by
  refine completes_of_gathered (x := ((u.noting x).noteLine c).scratch) he ?_ (congrArg Scratch.own hu)
    (congrArg Scratch.collected hu)
  rw [State.craneTelegram_of_up hlink, hf, State.sendWaiting_of_nothing (by rw [State.line_noting]; exact hwaits)]
  rfl

theorem Line.exchangeKind_of_exchange {l : Line} {x : Exchange} {k : ExchangeKind} (h : l.exchange = some x)
    (hk : x.kind = k) : l.exchangeKind = some k := by simp [Line.exchangeKind, h, hk]

/-! ## The end of the ORDER exchange (R126, R127, R128) -/

theorem State.wantCancels_one {s : State} {g : Leg} {j : Job} (hj : s.job g.job = some j)
    (hw : j.withdrawRequested = false) : s.wantCancels [g] = [g] := by simp [State.wantCancels, hj, hw]

/-- The trip's one leg and its job, when the ORDER is accepted. -/
theorem State.acceptOrder_one {s : State} {c : Fin 8} {t : Trip} {k i : Nat} {j : Job} {w v : Bool}
    (hlegs : t.legs = [⟨k, i, false, w, v⟩]) (hj : s.job i = some j) (hw : j.withdrawRequested = false) :
    s.acceptOrder c t = ((s.setJob i { j with state := .active }).setLine c { s.line c with
      exchange := none
      silence := s.settings.pollInterval
      trip := some { t with accepted := true }
      ctx := { (s.line c).ctx with work := .busy } }).noteInput c 1 := by
  have hwant : s.wantCancels t.legs = t.legs := by rw [hlegs]; exact State.wantCancels_one hj hw
  have hj' : (s.closeExchange c).job i = some j := by rw [State.closeExchange_eq]; exact hj
  simp only [State.acceptOrder, hwant, Trip.openJobs_one hlegs, State.activate, List.foldl_cons, List.foldl_nil,
    State.updateJob_of_job hj']
  simp [State.closeExchange_eq, State.updateLine]

/-- The trip's one leg and its job, when the ORDER is discarded (R129). -/
theorem State.dissolveTrip_discarded {s : State} {c : Fin 8} {t : Trip} {k i : Nat} {j : Job} {w v : Bool}
    (hx : t.transfer = none) (hlegs : t.legs = [⟨k, i, false, w, v⟩]) (hj : s.job i = some j)
    (hw : j.withdrawRequested = false) (hk : j.kind ≠ .relocate) :
    s.dissolveTrip c t none = ((s.readyAgain i j).setLine c { s.line c with
      exchange := none
      silence := s.settings.pollInterval
      trip := none
      ctx := { (s.line c).ctx with work := .idle } }).noteInput c 7 := by
  have hj' : (((s.closeExchange c).noteInput c 7).dropTrip c).job i = some j := by
    rw [State.closeExchange_eq, State.dropTrip_eq]; exact hj
  simp only [State.dissolveTrip, State.endTransfer_of_none hx, Trip.openJobs_one hlegs, List.foldl_cons, List.foldl_nil,
    State.enterReady_of_kept hj' hw hk]
  simp [State.closeExchange_eq, State.dropTrip_eq, State.readyAgain]

/-- A refusal's effects on the line, field by field. -/
theorem Line.refused_eq (l : Line) (r : NakReason) : l.refused r = { l with
    notReady := if r = NakReason.busy then true else l.notReady
    ctx := { l.ctx with
      mode := if r = NakReason.manual then CraneMode.manual else l.ctx.mode
      nakFault := if r = NakReason.fault then true else l.ctx.nakFault } } := by
  cases r <;> rfl

/-- A refused ORDER is a discarded one with the refusal's effects on the job and on the line. -/
theorem State.dissolveTrip_refused {s : State} {c : Fin 8} {t : Trip} {k i : Nat} {j : Job} {w v : Bool}
    (hx : t.transfer = none) (hlegs : t.legs = [⟨k, i, false, w, v⟩]) (hj : s.job i = some j)
    (hw : j.withdrawRequested = false) (hk : j.kind ≠ .relocate) (r : NakReason) :
    s.dissolveTrip c t (some r) = ((s.readyAgain i (j.refused c r)).setLine c ({ s.line c with
      exchange := none
      silence := s.settings.pollInterval
      trip := none
      ctx := { (s.line c).ctx with work := .idle } }.refused r)).noteInput c 7 := by
  have hdiscarded := State.dissolveTrip_discarded (c := c) hx hlegs hj hw hk
  have hsplit : s.dissolveTrip c t (some r) = (t.openJobs.foldl
      (fun v i => v.updateJob i (fun j => j.refused c r)) (s.dissolveTrip c t none)).updateLine c
        (fun l => l.refused r) := rfl
  have hj' : (s.dissolveTrip c t none).job i =
      some { j with state := .ready, reason := none, assignment := none } := by
    rw [hdiscarded]; exact State.job_setJob_self s i _
  rw [hsplit, Trip.openJobs_one hlegs, List.foldl_cons, List.foldl_nil, State.updateJob_of_job hj', hdiscarded]
  simp [State.readyAgain, State.updateLine, Job.refused]

/-! ## ORDER ACK and ORDER NAK (R126, R127) -/

theorem exec_orderAck (c : Fin 8) (n : Byte) (s : State) :
    exec (.orderAck c n) s = .next (s.event (fun t => t.craneTelegram c (fun u => u.takeOrderAck c n.toNat))) := rfl

theorem exec_orderNak {reason : Byte} {k : NakReason} (h : readNakReason reason.toNat = some k) (c : Fin 8) (n : Byte)
    (s : State) : exec (.orderNak c n reason) s =
      .next (s.event (fun t => t.craneTelegram c (fun u => u.takeOrderNak c n.toNat k))) := by
  simp only [exec, execOrderNak, State.receiveOrderNak, h]

theorem State.takeOrderAck_ofOpenOrder {s : State} {c : Fin 8} {t : Trip} {n : Nat} (ht : (s.line c).trip = some t)
    (hx : (s.line c).exchangeKind = some (.order n)) : s.takeOrderAck c n = s.acceptOrder c t := by
  simp only [State.takeOrderAck, ht, hx, decide_true]

theorem State.takeOrderNak_ofOpenOrder {s : State} {c : Fin 8} {t : Trip} {n : Nat} (ht : (s.line c).trip = some t)
    (hx : (s.line c).exchangeKind = some (.order n)) (k : NakReason) :
    s.takeOrderNak c n k = s.dissolveTrip c t (some k) := by
  simp only [State.takeOrderNak, ht, hx, decide_true]

/-- Settles O46: the exchange closes, and an accepted trip with no cancel wanted has nothing waiting. -/
theorem orderAckAcceptsTheTrip : Obligations.OrderAckAcceptsTheTrip := by
  intro c n t x i j s hS hlink htrip hlegs hx hkind hstale hj hw
  have hkind' : ((s.restartSilence c).line c).exchangeKind = some (.order n.toNat) := by
    rw [State.line_restartSilence]; exact Line.exchangeKind_of_exchange hx hkind
  have htaken : (s.restartSilence c).takeOrderAck c n.toNat = (s.restartSilence c).acceptOrder c t :=
    State.takeOrderAck_ofOpenOrder (by rw [State.line_restartSilence]; exact htrip) hkind'
  have haccepted := State.acceptOrder_one (s := s.restartSilence c) (c := c) hlegs hj hw
  rw [State.line_restartSilence, State.setJob_setLine_comm, State.setLine_restartSilence] at haccepted
  refine completes_craneTelegram (exec_orderAck c n s) hlink (htaken.trans haccepted) hS.scratch ?_
  rw [State.line_setLine]
  refine Line.nothingWaits_of_accepted (t := { t with accepted := true }) rfl rfl (fun g hg => ?_) hstale
  rw [hlegs, List.mem_singleton] at hg
  rw [hg]; rfl

/-! ## A STATUS that discards the ORDER (R129) -/

theorem exec_status {mode aisle bay level flags faults trip leg : Byte} {r : StatusReport}
    (h : readStatus mode aisle bay level flags faults trip leg = some r) (c : Fin 8) (s : State) :
    exec (.status c mode aisle bay level flags faults trip leg) s =
      .next (s.event (fun t => t.craneTelegram c (fun u => u.takeStatus c r))) := by
  simp only [exec, execStatus, State.receiveStatus, h]

/-- A report without a newly active fault is stored, and nothing is raised or counted (R141). -/
theorem State.takeReport_plain {s : State} {c : Fin 8} {r : StatusReport} (h : (s.line c).ctx.newFaults r.faults = 0) :
    s.takeReport c r = s.setLine c { s.line c with ctx := (s.line c).ctx.takeReport r } := by
  have hnone : countKinds 0 = 0 := by decide
  simp only [State.takeReport, h, hnone, State.noteInputs, bne_self_eq_false, Bool.false_eq_true, if_false]
  rfl

/-- A crane that stands where it stood, holding the lock there, needs no reconciliation (R99). -/
theorem State.takeAisle_settled {s : State} {c : Fin 8} {r : StatusReport} {z : Fin 16} (hr : r.aisle = .inAisle z)
    (haisle : (s.line c).ctx.aisle = .inAisle z) (hlock : s.holdsLock c z = true)
    (hdue : (s.line c).reconcileDue = false) : s.takeAisle c r =
      s.setLine c { s.line c with ctx := { (s.line c).ctx with aisle := .inAisle z } } := by
  simp [State.takeAisle, hr, State.updateCtx, State.updateLine, hdue, haisle, hlock]

/-- A STATUS with trip in hand 0 that reports another mode than AUTO, or leaves an active fault, discards the ORDER. -/
theorem State.decideExchange_discards {s : State} {c : Fin 8} {r : StatusReport} {t : Trip} {m : Nat}
    (ht : (s.line c).trip = some t) (hx : (s.line c).exchangeKind = some (.order m)) (hr : r.trip = 0) (hm : m ≠ 0)
    (hctx : (s.line c).ctx.mode ≠ .auto ∨ (s.line c).ctx.active ≠ 0) :
    s.decideExchange c r = (s.dissolveTrip c t none).updateLine c (fun l => { l with notReady := false }) := by
  have hcond : (s.line c).ctx.mode ≠ .auto ∨ (s.line c).ctx.active ≠ 0 ∨ r.trip ≠ 0 := hctx.imp_right .inl
  have hother : ¬ r.trip = m := by rw [hr]; exact hm.symm
  simp only [State.decideExchange, ht, hx, if_neg hother, if_pos hcond, if_pos hr]

theorem State.reconcileTrips_of_emptyHand {s : State} {c : Fin 8} {r : StatusReport} (h : r.trip = 0) :
    s.reconcileTrips c r = s.updateLine c (fun l => { l with strandedCheck := false }) := by
  simp only [State.reconcileTrips, h, true_or, if_true]

theorem State.joinByStatus_of_noTrip {s : State} {c : Fin 8} (h : (s.line c).trip = none) (r : StatusReport) :
    s.joinByStatus c r = s := by
  unfold State.joinByStatus
  split
  · simp only [State.joinQueue, h]
  · rfl

theorem Context.takeReport_inAisle (x : Context) (r : StatusReport) (z : Fin 16) :
    ({ x.takeReport r with aisle := .inAisle z } : Context) = x.reported r z := rfl

/-- The steps of R138 for such a STATUS of a crane that stands where it stood. -/
theorem State.takeStatus_discards {s : State} {c : Fin 8} {r : StatusReport} {z : Fin 16} {t : Trip} {k m i : Nat}
    {j : Job} {w v : Bool} (hr : r.aisle = .inAisle z) (htrip0 : r.trip = 0) (hm : m ≠ 0)
    (hlock : s.holdsLock c z = true) (haisle : (s.line c).ctx.aisle = .inAisle z)
    (hdue : (s.line c).reconcileDue = false) (hcheck : (s.line c).strandedCheck = false)
    (hnew : (s.line c).ctx.newFaults r.faults = 0)
    (hbad : r.mode ≠ .auto ∨ r.faults &&& (s.line c).ctx.detect ≠ 0) (ht : (s.line c).trip = some t)
    (hx : t.transfer = none) (hlegs : t.legs = [⟨k, i, false, w, v⟩])
    (hkind : (s.line c).exchangeKind = some (.order m)) (hj : s.job i = some j) (hw : j.withdrawRequested = false)
    (hk : j.kind ≠ .relocate) :
    s.takeStatus c r = ((s.readyAgain i j).setLine c { s.line c with
      exchange := none
      silence := s.settings.pollInterval
      trip := none
      notReady := false
      ctx := { (s.line c).ctx.reported r z with work := .idle } }).noteInput c 7 := by
  generalize hl : ({ s.line c with ctx := (s.line c).ctx.reported r z } : Line) = l
  have hstored : (s.takeReport c r).takeAisle c r = s.setLine c l := by
    have hline : ((s.takeReport c r).line c) = { s.line c with ctx := (s.line c).ctx.takeReport r } := by
      rw [State.takeReport_plain hnew, State.line_setLine]
    rw [State.takeAisle_settled hr (by rw [hline]; exact haisle) (by rw [State.takeReport_plain hnew]; exact hlock)
      (by rw [hline]; exact hdue), hline, State.takeReport_plain hnew, State.setLine_setLine,
      Context.takeReport_inAisle, hl]
  have hdecided : (s.setLine c l).decideExchange c r =
      ((s.setLine c l).dissolveTrip c t none).updateLine c (fun l => { l with notReady := false }) := by
    refine State.decideExchange_discards ?_ ?_ htrip0 hm ?_ <;> rw [State.line_setLine, ← hl]
    · exact ht
    · exact hkind
    · exact hbad
  have hdissolved := State.dissolveTrip_discarded (s := s.setLine c l) (c := c) hx hlegs hj hw hk
  rw [State.takeStatus, hstored, hdecided, State.reconcileTrips_of_emptyHand htrip0, State.joinByStatus_of_noTrip]
  · rw [hdissolved, ← hl]
    simp [State.readyAgain, State.updateLine, hcheck]
  · rw [hdissolved]
    simp [State.updateLine]

/-- Settles O47: either way the exchange closes, the one leg's job waits READY again, and the crane holds no trip. -/
theorem orderNakDissolvesTheTrip : Obligations.OrderNakDissolvesTheTrip := by
  intro c t x m i j s hS hlink htrip htransfer hlegs hx hkind hstale hj hw hk
  have htrip' : ((s.restartSilence c).line c).trip = some t := by rw [State.line_restartSilence]; exact htrip
  have hkind' : ((s.restartSilence c).line c).exchangeKind = some (.order m) := by
    rw [State.line_restartSilence]; exact Line.exchangeKind_of_exchange hx hkind
  refine ⟨fun n reason k hm hreason => ?_, fun mode aisle bay level flags faults trip leg r z hread hr htrip0 hm _ hlock
    haisle hdue hcheck hnew hbad => ?_⟩
  · subst hm
    have hrefused := State.dissolveTrip_refused (s := s.restartSilence c) (c := c) htransfer hlegs hj hw hk k
    rw [State.line_restartSilence, Line.refused_eq] at hrefused
    refine completes_craneTelegram (x := [(c, 7)]) (exec_orderNak hreason c n s) hlink
      ((State.takeOrderNak_ofOpenOrder htrip' hkind' k).trans (hrefused.trans ?_)) hS.scratch ?_
    · simp only [State.readyAgain, State.tellDispatcher_setLine_comm, State.setJob_setLine_comm,
        State.setLine_restartSilence]
      rfl
    · rw [State.line_setLine]
      exact Line.nothingWaits_of_noTrip rfl hstale
  · have hdiscarded := State.takeStatus_discards (s := s.restartSilence c) (c := c) hr htrip0 hm hlock
      (by rw [State.line_restartSilence]; exact haisle) (by rw [State.line_restartSilence]; exact hdue)
      (by rw [State.line_restartSilence]; exact hcheck) (by rw [State.line_restartSilence]; exact hnew)
      (by rw [State.line_restartSilence]; exact hbad) htrip' htransfer hlegs hkind' hj hw hk
    rw [State.line_restartSilence] at hdiscarded
    refine completes_craneTelegram (x := [(c, 7)]) (exec_status hread c s) hlink (hdiscarded.trans ?_) hS.scratch ?_
    · simp only [State.readyAgain, State.tellDispatcher_setLine_comm, State.setJob_setLine_comm,
        State.setLine_restartSilence]
      rfl
    · rw [State.line_setLine]
      exact Line.nothingWaits_of_noTrip rfl hstale

/-! ## CANCEL ANSWER (R131, R132, R160) -/

theorem exec_cancelAnswer {verdict : Byte} {v : Bool} (h : readCancelVerdict verdict.toNat = some v) (c : Fin 8)
    (n leg : Byte) (s : State) : exec (.cancelAnswer c n leg verdict) s =
      .next (s.event (fun t => t.craneTelegram c (fun u => u.takeCancelAnswer c n.toNat leg.toNat v))) := by
  simp only [exec, execCancelAnswer, State.receiveCancelAnswer, h]

theorem State.takeCancelAnswer_ofAll {s : State} {c : Fin 8} {n : Nat}
    (h : (s.line c).exchangeKind = some (.cancelAll n)) (k : Nat) (v : Bool) :
    s.takeCancelAnswer c n k v = s.closeExchange c := by simp only [State.takeCancelAnswer, h, if_true]

theorem Line.openLeg_one {l : Line} {t : Trip} {n k i : Nat} {w v : Bool} (ht : l.trip = some t) (hn : t.number = n)
    (hlegs : t.legs = [⟨k, i, false, w, v⟩]) : l.openLeg n k = some (t, ⟨k, i, false, w, v⟩) := by
  simp [Line.openLeg, ht, hn, hlegs]

/-- An answer of TAKEN to the open CANCEL of an open leg takes the leg back. -/
theorem State.takeCancelAnswer_taken {s : State} {c : Fin 8} {t : Trip} {g : Leg} {n k : Nat}
    (h : (s.line c).exchangeKind = some (.cancel n k)) (hg : (s.line c).openLeg n k = some (t, g)) :
    s.takeCancelAnswer c n k true = (s.closeExchange c).takeBackLeg c g := by
  have hother : (s.line c).exchangeKind ≠ some (.cancelAll n) := by rw [h]; simp
  simp only [State.takeCancelAnswer, if_neg hother, if_pos h, hg, if_true]

theorem State.putSlot_setLine_comm (s : State) (a : Fin 16) (p : SlotPos) (r : Slot) (c : Fin 8) (l : Line) :
    (s.putSlot a p r).setLine c l = (s.setLine c l).putSlot a p r := rfl

theorem State.endsIn_setLine_comm (s : State) (i : Nat) (j : Job) (o : JobOutcome) (c : Fin 8) (l : Line) :
    (s.endsIn i j o).setLine c l = (s.setLine c l).endsIn i j o := rfl

theorem State.finishLeg_one {s : State} {c : Fin 8} {t : Trip} {k i : Nat} {w v : Bool}
    (ht : (s.line c).trip = some t) (hlegs : t.legs = [⟨k, i, false, w, v⟩]) :
    s.finishLeg c k = s.setLine c { s.line c with trip := some { t with legs := [⟨k, i, true, w, v⟩] } } := by
  simp [State.finishLeg, State.updateLine, Line.markLeg, ht, hlegs]

/-- A trip without transfer whose legs are all finished is cleared (R158). -/
theorem State.clearIfOver_of_over {s : State} {c : Fin 8} {t : Trip} (ht : (s.line c).trip = some t)
    (hx : t.transfer = none) (hlegs : t.legs.all Leg.finished = true) : s.clearIfOver c = s.dropTrip c := by
  simp only [State.clearIfOver, ht, hlegs, if_true, State.endTransfer_of_none hx]

/-- The one leg of a RETRIEVE taken back, while no job waits. -/
theorem State.takeBackLeg_retrieve {s : State} (hn : s.NoneWaits) {c : Fin 8} {t : Trip} {k i : Nat} {j : Job}
    {p : SlotPos} {w v : Bool} (ht : (s.line c).trip = some t) (hx : t.transfer = none)
    (hlegs : t.legs = [⟨k, i, false, w, v⟩]) (hj : s.job i = some j) (hp : j.slot = some p) (hq : j.target = none)
    (hc : j.choice = none) (hg : j.group = none) (hl : j.link = none)
    (hres : (s.slot j.aisle p).reservation = some ⟨.outOf, i⟩) :
    s.takeBackLeg c ⟨k, i, false, w, v⟩ =
      ((s.putSlot j.aisle p { s.slot j.aisle p with reservation := none }).endsIn i j .withdrawn).setLine c
        { s.line c with trip := none, ctx := { (s.line c).ctx with work := .idle } } := by
  generalize hm : ({ s.line c with trip := some { t with legs := [⟨k, i, true, w, v⟩] } } : Line) = m
  have hfinish : s.finishLeg c k = s.setLine c m := by rw [← hm]; exact State.finishLeg_one ht hlegs
  have hnow : (s.setLine c m).withdrawNow i =
      ((s.putSlot j.aisle p { s.slot j.aisle p with reservation := none }).endsIn i j .withdrawn).setLine c m :=
    State.withdrawNow_plain (s := s.setLine c m) hn hj hp hq hc hg hl hres
  rw [State.takeBackLeg, hfinish, hnow,
    State.clearIfOver_of_over (t := { t with legs := [⟨k, i, true, w, v⟩] }) (by rw [State.line_setLine, ← hm]) hx rfl,
    State.dropTrip_eq, State.setLine_setLine, State.line_setLine, ← hm]

/-- Settles O50: the exchange closes; TAKEN ends the leg as a withdrawal that no job waits for. -/
theorem cancelAnswerEndsTheCancel : Obligations.CancelAnswerEndsTheCancel := by
  intro c n leg verdict x s hS hlink hx hstale
  have hkindOf {k : ExchangeKind} (hk : x.kind = k) : ((s.restartSilence c).line c).exchangeKind = some k := by
    rw [State.line_restartSilence]; exact Line.exchangeKind_of_exchange hx hk
  have hclosed := State.closeExchange_eq (s.restartSilence c) c
  rw [State.line_restartSilence, State.setLine_restartSilence] at hclosed
  refine ⟨fun hkind htrip hverdict => ?_, fun t w i j p hnp hkind hleg hverdict htrip hnumber htransfer hlegs hj hk hg hl
    hc hslot htarget hres => ?_⟩
  · obtain ⟨v, hv⟩ : ∃ v, readCancelVerdict verdict.toNat = some v := by
      rcases hverdict with rfl | rfl
      · exact ⟨true, rfl⟩
      · exact ⟨false, rfl⟩
    refine completes_craneTelegram (x := []) (exec_cancelAnswer hv c n leg s) hlink
      ((State.takeCancelAnswer_ofAll (hkindOf hkind) leg.toNat v).trans ?_) hS.scratch ?_
    · rw [hclosed, State.noting_nil]
      rfl
    · rw [State.line_setLine]
      exact Line.nothingWaits_of_noTrip htrip hstale
  · subst hleg hverdict
    have hopen : ((s.restartSilence c).line c).openLeg n.toNat 1 = some (t, ⟨1, i, false, w, true⟩) := by
      rw [State.line_restartSilence]; exact Line.openLeg_one htrip hnumber hlegs
    have hback := State.takeBackLeg_retrieve (s := (s.restartSilence c).closeExchange c) (c := c) hnp.noneWaits
      (by rw [hclosed, State.line_setLine]; exact htrip) htransfer hlegs hj hslot htarget hc hg hl hres
    refine completes_craneTelegram (x := []) (exec_cancelAnswer (v := true) rfl c n 1 s) hlink
      ((State.takeCancelAnswer_taken (hkindOf hkind) hopen).trans (hback.trans ?_)) hS.scratch ?_
    · rw [hclosed, State.line_setLine, State.noting_nil, State.endsIn_setLine_comm, State.putSlot_setLine_comm,
        State.setLine_setLine]
      rfl
    · rw [State.line_setLine]
      exact Line.nothingWaits_of_noTrip rfl hstale

end Sys2Proof.Machine
end

section
/-! What a crane's report makes of the job of a leg and of its slots (the table of R157), while no job waits for a change. -/

namespace Sys2Proof.Machine

/-! ## The report (R156) -/

/-- What a report does to the job that it is of. -/
theorem State.applyReport_ended {s : State} {i : Nat} {j : Job} (h : s.job i = some j) {r : LegReport} {o : JobOutcome}
    (hr : r = .ended o) : s.applyReport i r = s.applyOutcome i j o := by simp only [State.applyReport, h, hr]

theorem State.applyReport_returned {s : State} {i : Nat} {j : Job} (h : s.job i = some j) {outcome position : Nat}
    (ho : outcome = 7 ∨ outcome = 8 ∧ position = 1) :
    s.applyReport i (legReport j.kind outcome position) = s.enterReady i := by
  rcases ho with rfl | ⟨rfl, rfl⟩ <;> simp [State.applyReport, h, legReport]

/-- ABORTED with any other load position, and an outcome that the kind does not allow. -/
theorem legReport_strands {kind : JobKind} {outcome position : Nat}
    (ho : outcome = 8 ∧ position ≠ 1 ∨ outcome = 0 ∨ outcome = 2 ∨ 8 < outcome ∨ outcome = 3 ∧ kind ≠ .store ∨
      outcome = 4 ∧ kind = .store ∨ outcome = 5 ∧ kind ≠ .relocate ∨ outcome = 6 ∧ kind ≠ .store) :
    legReport kind outcome position = .onForks ∨ legReport kind outcome position = .improper := by
  rcases ho with ⟨rfl, hp⟩ | rfl | rfl | hbeyond | ⟨rfl, hk⟩ | ⟨rfl, rfl⟩ | ⟨rfl, hk⟩ | ⟨rfl, hk⟩
  · by_cases hforks : position = 2
    · exact .inl (by simp [legReport, hforks])
    · exact .inr (by simp [legReport, hp, hforks])
  · exact .inr rfl
  · exact .inr rfl
  · have h (n : Nat) (hn : n ≤ 8) : outcome ≠ n := by omega
    exact .inr (by simp [legReport, h])
  · exact .inr (by simp [legReport, hk])
  · exact .inr rfl
  · exact .inr (by simp [legReport, hk])
  · exact .inr (by simp [legReport, hk])

theorem State.applyReport_strands {s : State} {i : Nat} {j : Job} (h : s.job i = some j) {r : LegReport}
    (hr : r = .onForks ∨ r = .improper) :
    s.applyReport i r = (s.setJob i { j with state := .stranded }).raise .stranded := by
  rw [← State.enterStranded_of_job h]
  rcases hr with rfl | rfl <;> simp only [State.applyReport, h]

/-! ## Jobs that return (R157) -/

theorem State.enterReady_of_linked {s : State} {i : Nat} {j : Job} (h : s.job i = some j)
    (hw : j.withdrawRequested = false) (hl : j.kind = .relocate → j.link ≠ none) :
    s.enterReady i = s.readyAgain i j := by
  have hkept : ¬ (j.kind = .relocate ∧ j.link = none) := fun ⟨hk, hnone⟩ => hl hk hnone
  simp [State.enterReady, State.returnJob, h, hw, hkept, State.readyAgain]

/-- A relocation without a dependent becomes FREE instead (R12). -/
theorem State.enterReady_of_unlinked {s : State} {i : Nat} {j : Job} (h : s.job i = some j)
    (hw : j.withdrawRequested = false) (hk : j.kind = .relocate) (hl : j.link = none) :
    s.enterReady i = s.freeDirectly i := by simp [State.enterReady, State.returnJob, h, hw, hk, hl]

/-- A job whose withdrawal is asked for is withdrawn instead (R8). -/
theorem State.enterReady_of_withdrawn {s : State} {i : Nat} {j : Job} (h : s.job i = some j)
    (hw : j.withdrawRequested = true) : s.enterReady i = s.withdrawNow i := by
  simp [State.enterReady, State.returnJob, h, hw]

/-! ## STOREs (R46) -/

theorem State.endsIn_setJob (s : State) (i : Nat) (j k : Job) (o : JobOutcome) :
    (s.setJob i k).endsIn i j o = s.endsIn i j o := by
  rw [State.endsIn, State.setJob_setJob]
  rfl

/-- A STORE that gives up its reservation, and its slot when it is a CHOSEN one, and enters DONE (R34, R46, R49). -/
theorem State.enterDone_givenUp {s : State} (hn : s.NoneWaits) {i : Nat} {j : Job} {p : SlotPos} (h : s.job i = some j)
    (hs : s.Stores i j p) (o : JobOutcome) :
    (if j.choice = some .chosen then (s.settleSlot j.aisle j.slot i id).updateJob i (fun k => { k with slot := none })
      else s.settleSlot j.aisle j.slot i id).enterDone i o =
    (s.putSlot j.aisle p { s.slot j.aisle p with reservation := none }).endsIn i
      { j with slot := if j.choice = some .chosen then none else some p } o := by
  have hsettle : s.settleSlot j.aisle j.slot i id =
      s.putSlot j.aisle p { s.slot j.aisle p with reservation := none } := by
    rw [hs.slot, State.settleSlot_of_noneWaits hn hs.held, id_eq]
  have h' : (s.putSlot j.aisle p { s.slot j.aisle p with reservation := none }).job i = some j := h
  rw [hsettle]
  split
  · rw [State.updateJob_of_job h', State.enterDone_plain (j := { j with slot := none }) (State.job_setJob_self ..)
      hs.group hs.link, State.endsIn_setJob]
  · rw [State.enterDone_plain h' hs.group hs.link, ← hs.slot]

theorem State.withdrawNow_store {s : State} (hn : s.NoneWaits) {i : Nat} {j : Job} {p : SlotPos} (h : s.job i = some j)
    (hs : s.Stores i j p) : s.withdrawNow i =
      (s.putSlot j.aisle p { s.slot j.aisle p with reservation := none }).endsIn i
        { j with slot := if j.choice = some .chosen then none else some p } .withdrawn := by
  rw [← State.enterDone_givenUp hn h hs]
  simp only [State.withdrawNow, State.releaseReservations, h, hs.target, State.settleSlot_none]

/-- A job that holds no slot, without group and link, is withdrawn. -/
theorem State.withdrawNow_slotless {s : State} {i : Nat} {j : Job} (h : s.job i = some j) (hp : j.slot = none)
    (hq : j.target = none) (hg : j.group = none) (hl : j.link = none) :
    s.withdrawNow i = s.endsIn i j .withdrawn := by
  have hj : ({ j with slot := none } : Job) = j := by rw [← hp]
  simp only [State.withdrawNow, State.releaseReservations, h, hp, hq, State.settleSlot_none]
  split
  · rw [State.updateJob_of_job h, hj, State.enterDone_plain (State.job_setJob_self ..) hg hl, State.endsIn_setJob]
  · exact State.enterDone_plain h hg hl _

/-- The slot of a STORE that was found occupied. -/
theorem State.settleSlot_found {s : State} (hn : s.NoneWaits) {i : Nat} {j : Job} {p : SlotPos} (hs : s.Stores i j p) :
    s.settleSlot j.aisle j.slot i (fun r => (r.filled 15).doubted) =
      s.putSlot j.aisle p { s.slot j.aisle p with
        condition := .occupied, pallet := some 15, reservation := none, unverified := true } := by
  rw [hs.slot, State.settleSlot_of_noneWaits hn hs.held]
  rfl

/-- SLOT_OCCUPIED of an EXPLICIT STORE ends the job. -/
theorem State.applyOutcome_slotOccupied_explicit {s : State} (hn : s.NoneWaits) {i : Nat} {j : Job} {p : SlotPos}
    (h : s.job i = some j) (hs : s.Stores i j p) (hc : j.choice = some .explicit) :
    s.applyOutcome i j .slotOccupied = (s.putSlot j.aisle p { s.slot j.aisle p with
      condition := .occupied, pallet := some 15, reservation := none, unverified := true }).endsIn i j
        .slotOccupied := by
  have hother : ¬ j.choice = some .chosen := by simp [hc]
  simp only [State.applyOutcome, State.settleSlot_found hn hs, if_neg hother]
  exact State.enterDone_plain (s := s.putSlot j.aisle p _) h hs.group hs.link _

/-- SLOT_OCCUPIED of a CHOSEN STORE takes its slot away and evaluates it again, or withdraws it (R8, R46). -/
theorem State.applyOutcome_slotOccupied_chosen {s u : State} (hn : s.NoneWaits) {i : Nat} {j : Job} {p : SlotPos}
    (h : s.job i = some j) (hs : s.Stores i j p) (hc : j.choice = some .chosen)
    (hu : u = (s.putSlot j.aisle p { s.slot j.aisle p with
      condition := .occupied, pallet := some 15, reservation := none, unverified := true }).setJob i
        { j with slot := none }) :
    s.applyOutcome i j .slotOccupied = if j.withdrawRequested then u.withdrawNow i else u.evaluate i := by
  have h' (r : Slot) : (s.putSlot j.aisle p r).job i = some j := h
  simp only [State.applyOutcome, State.settleSlot_found hn hs, if_pos hc, State.updateJob_of_job (h' _), ← hu]

/-- A CHOSEN STORE comes from another state to wait for room (R37, R39). -/
theorem State.evaluate_chosen_noRoom {s : State} {i : Nat} {j : Job} (h : s.job i = some j) (hk : j.kind = .store)
    (hc : j.choice = some .chosen) (hst : j.staged = some true) (hw : j.withdrawRequested = false)
    (hp : j.state ≠ .pending) (hnone : s.chooseSlot j.aisle j.loadClass (0, 0) none = none) :
    s.evaluate i =
      (s.setJob i { j with state := .pending, reason := some .noRoom, assignment := none }).raise .noRoom := by
  have hevaluate : s.evaluate i = s.enterPending i .noRoom := by
    simp [State.evaluate, h, hk, hc, State.evaluateChosen, hst, hnone]
  rw [hevaluate, State.enterPending, State.returnJob_of_kept h hw (by simp [hk])]
  simp [hp]

/-! ## RETRIEVEs (R47) -/

/-- The slot of a COMPLETED RETRIEVE is emptied before the job enters DONE. -/
theorem State.completeJob_retrieve {s : State} (hn : s.NoneWaits) {i : Nat} {j : Job} {p : SlotPos}
    (hs : s.Retrieves i j p) : s.completeJob i j = (s.putSlot j.aisle p { s.slot j.aisle p with
      condition := .empty, pallet := none, reservation := none }).enterDone i .completed := by
  simp only [State.completeJob, hs.kind, hs.slot, State.settleSlot_of_noneWaits hn hs.held]
  rfl

/-- A member that completes at the next rank of its group, with nothing done ahead, advances the group (R81, R83). -/
theorem State.enterDone_nextRank {s : State} {i : Nat} {j : Job} {g : Fin 16} {r : Nat} {o : OpenGroup}
    (h : s.job i = some j) (hg : j.group = some ⟨g, r⟩) (hl : j.link = none) (ho : (s.group g).opened = some o)
    (hnext : o.next = r) (hr : r < 65535) (hahead : o.ahead = []) :
    s.enterDone i .completed = ((s.endsIn i j .completed).setGroup g ⟨(s.group g).members - 1,
      some { o with next := r + 1, stallTimer := 0, stallReported := false }⟩).tellDispatcher := by
  obtain ⟨next, window, ahead, limit, timer, reported⟩ := o
  obtain rfl : next = r := hnext
  obtain rfl : ahead = [] := hahead
  have hdone : s.enterDone i .completed = (s.endsIn i j .completed).endMembership ⟨g, next⟩ .completed := by
    cases j
    cases hg
    cases hl
    simp only [State.enterDone, h]
    rfl
  have hopened : (((s.endsIn i j .completed).setGroup g
      { s.group g with members := (s.group g).members - 1 }).group g).opened =
        some ⟨next, window, [], limit, timer, reported⟩ := by
    rw [State.group_setGroup]; exact ho
  have hadvance := (State.finishRank_next hopened).trans (State.advanceGroup_moves _ g rfl hr)
  rw [State.setGroup_setGroup, State.group_setGroup] at hadvance
  exact hdone.trans hadvance

/-! ## RELOCATEs (R48) -/

/-- Both slots of a relocation change, its source first. -/
theorem State.settleSlot_both {s : State} (hn : s.NoneWaits) {i : Nat} {j : Job} {p q : SlotPos} (hm : s.Moves i j p q)
    (f g : Slot → Slot) : (s.settleSlot j.aisle j.slot i f).settleSlot j.aisle j.target i g =
      (s.putSlot j.aisle p (f { s.slot j.aisle p with reservation := none })).putSlot j.aisle q
        (g { s.slot j.aisle q with reservation := none }) := by
  have hslot (r : Slot) : (s.putSlot j.aisle p r).slot j.aisle q = s.slot j.aisle q :=
    State.slot_putSlot_ne s _ _ _ _ r hm.apart.symm
  have hn' (r : Slot) : (s.putSlot j.aisle p r).NoneWaits := hn
  rw [hm.source, hm.target, State.settleSlot_of_noneWaits hn hm.out,
    State.settleSlot_of_noneWaits (hn' _) (by rw [hslot]; exact hm.into), hslot]

/-- The source of a relocation is released after it has entered DONE with its target changed (R48). -/
theorem State.settleSlot_source {s : State} (hn : s.NoneWaits) {i : Nat} {j : Job} {p q : SlotPos}
    (hm : s.Moves i j p q) (r : Slot) (o : JobOutcome) :
    ((s.putSlot j.aisle q r).endsIn i j o).settleSlot j.aisle j.slot i id =
      ((s.putSlot j.aisle q r).putSlot j.aisle p { s.slot j.aisle p with reservation := none }).endsIn i j o := by
  have hslot : ((s.putSlot j.aisle q r).endsIn i j o).slot j.aisle p = s.slot j.aisle p :=
    State.slot_putSlot_ne s _ _ _ _ r hm.apart
  have hn' : ((s.putSlot j.aisle q r).endsIn i j o).NoneWaits :=
    State.NoneWaits.setJob hn i (Job.waits_of_state (by simp [Job.ended]))
  rw [hm.source, State.settleSlot_of_noneWaits hn' (by rw [hslot]; exact hm.out), hslot, id_eq]
  rfl

/-! ## The table of R157 -/

/-- What the model makes of a report is what `LegEffect` lists. -/
theorem State.applyReport_of_legEffect {s u : State} {i outcome position : Nat} {j : Job} (hn : s.NoneWaits)
    (hp : j.state ≠ .pending) (hj : s.job i = some j) (h : LegEffect s i j outcome position u) :
    s.applyReport i (legReport j.kind outcome position) = u := by
  cases h with
  | stored hs =>
    exact (State.applyReport_ended hj rfl).trans
      (State.completeJob_store hn hj hs.kind hs.slot hs.held hs.group hs.link)
  | storeRefused hs hc =>
    exact (State.applyReport_ended hj (by rw [hs.kind]; rfl)).trans (State.applyOutcome_slotOccupied_explicit hn hj hs hc)
  | @storeChosenAgain p q _ u hs hc hst hw hu hchoice =>
    have hujob : u.job i = some { j with slot := none } := by rw [hu]; exact State.job_setJob_self _ i _
    have hwaits : u.NoneWaits := by
      rw [hu]
      exact State.NoneWaits.setJob (s := s.putSlot j.aisle p _) hn i (Job.waits_of_state hp)
    refine (State.applyReport_ended hj (by rw [hs.kind]; rfl)).trans
      ((State.applyOutcome_slotOccupied_chosen hn hj hs hc hu).trans ?_)
    rw [if_neg (by simp [hw]), State.evaluate_chosen_some hwaits hujob hs.kind hc hst hw hchoice]
    rfl
  | storeChosenWithdrawn hs hc hw =>
    refine (State.applyReport_ended hj (by rw [hs.kind]; rfl)).trans
      ((State.applyOutcome_slotOccupied_chosen hn hj hs hc rfl).trans ?_)
    rw [if_pos hw, State.withdrawNow_slotless (j := { j with slot := none }) (State.job_setJob_self ..) rfl hs.target
      hs.group hs.link, State.endsIn_setJob]
  | @storeWithoutRoom p _ u hs hc hst hw hp hu hchoice =>
    have hujob : u.job i = some { j with slot := none } := by rw [hu]; exact State.job_setJob_self _ i _
    refine (State.applyReport_ended hj (by rw [hs.kind]; rfl)).trans
      ((State.applyOutcome_slotOccupied_chosen hn hj hs hc hu).trans ?_)
    rw [if_neg (by simp [hw]), State.evaluate_chosen_noRoom hujob hs.kind hc hst hw hp hchoice]
  | loadRefused hs =>
    exact (State.applyReport_ended (o := .loadRefused) hj (by rw [hs.kind]; rfl)).trans
      (State.enterDone_givenUp hn hj hs .loadRefused)
  | retrieved hs hg =>
    refine (State.applyReport_ended hj rfl).trans ((State.completeJob_retrieve hn hs).trans ?_)
    exact State.enterDone_plain (s := s.putSlot j.aisle _ _) hj hg hs.link .completed
  | rankRetrieved hs hg ho hnext hr hahead =>
    refine (State.applyReport_ended hj rfl).trans ((State.completeJob_retrieve hn hs).trans ?_)
    exact State.enterDone_nextRank (s := s.putSlot j.aisle _ _) hj hg hs.link ho hnext hr hahead
  | retrieveEmpty hs hg =>
    refine (State.applyReport_ended hj (by rw [hs.kind]; rfl)).trans ?_
    simp only [State.applyOutcome, hs.slot, hs.target, State.settleSlot_none, State.settleSlot_of_noneWaits hn hs.held]
    exact State.enterDone_plain (s := s.putSlot j.aisle _ _) hj hg hs.link .slotEmpty
  | moved hm hl =>
    refine (State.applyReport_ended hj rfl).trans ?_
    simp only [State.applyOutcome, State.completeJob, hm.kind, State.settleSlot_both hn hm]
    exact State.enterDone_plain (s := (s.putSlot j.aisle _ _).putSlot j.aisle _ _) hj hm.group hl .completed
  | moveEmpty hm hl =>
    refine (State.applyReport_ended hj (by rw [hm.kind]; rfl)).trans ?_
    simp only [State.applyOutcome, State.settleSlot_both hn hm]
    exact State.enterDone_plain (s := (s.putSlot j.aisle _ _).putSlot j.aisle _ _) hj hm.group hl .slotEmpty
  | @moveBlocked p q _ hm hl =>
    have hj' (r : Slot) : (s.putSlot j.aisle q r).job i = some j := hj
    refine (State.applyReport_ended hj (by rw [hm.kind]; rfl)).trans ?_
    simp only [State.applyOutcome, hm.target, State.settleSlot_of_noneWaits hn hm.into,
      State.enterDone_plain (hj' _) hm.group hl]
    exact State.settleSlot_source hn hm _ .targetOccupied
  | returned ho hw hl => rw [State.applyReport_returned hj ho, State.enterReady_of_linked hj hw hl]
  | moveDropped ho hw hm hl =>
    rw [State.applyReport_returned hj ho, State.enterReady_of_unlinked hj hw hm.kind hl, State.freeDirectly,
      State.releaseReservations_two hn hj hm.source hm.target hm.choice hm.out hm.into]
  | retrieveWithdrawn ho hw hs hg =>
    rw [State.applyReport_returned hj ho, State.enterReady_of_withdrawn hj hw,
      State.withdrawNow_plain hn hj hs.slot hs.target hs.choice hg hs.link hs.held]
  | storeWithdrawn ho hw hs =>
    rw [State.applyReport_returned hj ho, State.enterReady_of_withdrawn hj hw, State.withdrawNow_store hn hj hs]
  | strands ho => exact State.applyReport_strands hj (legReport_strands ho)

end Sys2Proof.Machine
end

section
/-! The statement on LEG DONE. -/

namespace Sys2Proof.Machine

/-! ## Reports beside the line (R157) -/

/-- What a line has sent and which trip it holds does not bear on store choice (R40). -/
theorem State.choiceTiming_setLine {s : State} {c : Fin 8} {l : Line} (hlink : l.link = (s.line c).link)
    (hh : l.ctx.h = (s.line c).ctx.h) (hv : l.ctx.v = (s.line c).ctx.v) :
    (s.setLine c l).choiceTiming = s.choiceTiming := by
  have hsame (d : Fin 8) : ((s.setLine c l).line d).link = (s.line d).link ∧
      ((s.setLine c l).line d).ctx.h = (s.line d).ctx.h ∧ ((s.setLine c l).line d).ctx.v = (s.line d).ctx.v := by
    by_cases hd : d = c
    · subst hd
      rw [State.line_setLine]
      exact ⟨hlink, hh, hv⟩
    · rw [State.line_setLine_ne _ _ _ _ hd]
      exact ⟨rfl, rfl, rfl⟩
  simp only [State.choiceTiming, hsame]

theorem State.chooseSlot_setLine {s : State} {c : Fin 8} {l : Line} (hlink : l.link = (s.line c).link)
    (hh : l.ctx.h = (s.line c).ctx.h) (hv : l.ctx.v = (s.line c).ctx.v) (x : List (Fin 8 × Nat)) (a : Fin 16) (k : Nat)
    (start : Nat × Nat) (besides : Option SlotPos) :
    ((s.setLine c l).noting x).chooseSlot a k start besides = s.chooseSlot a k start besides := by
  have htiming : ((s.setLine c l).noting x).choiceTiming = s.choiceTiming := State.choiceTiming_setLine hlink hh hv
  unfold State.chooseSlot
  rw [htiming]
  rfl

/-- The state with line `c` written and counter inputs noted. -/
def State.beside (s : State) (c : Fin 8) (l : Line) (x : List (Fin 8 × Nat)) : State := (s.setLine c l).noting x

section beside

variable (s : State) (c : Fin 8) (l : Line) (x : List (Fin 8 × Nat))

@[simp] theorem State.slot_beside (a : Fin 16) (p : SlotPos) : (s.beside c l x).slot a p = s.slot a p := rfl

@[simp] theorem State.group_beside (g : Fin 16) : (s.beside c l x).group g = s.group g := rfl

@[simp] theorem State.putSlot_beside (a : Fin 16) (p : SlotPos) (r : Slot) :
    (s.beside c l x).putSlot a p r = (s.putSlot a p r).beside c l x := rfl

@[simp] theorem State.setJob_beside (i : Nat) (j : Job) :
    (s.beside c l x).setJob i j = (s.setJob i j).beside c l x := rfl

@[simp] theorem State.setGroup_beside (g : Fin 16) (r : Group) :
    (s.beside c l x).setGroup g r = (s.setGroup g r).beside c l x := rfl

@[simp] theorem State.tellDispatcher_beside :
    (s.beside c l x).tellDispatcher = s.tellDispatcher.beside c l x := rfl

@[simp] theorem State.raise_beside (a : Alert) : (s.beside c l x).raise a = (s.raise a).beside c l x := rfl

@[simp] theorem State.endsIn_beside (i : Nat) (j : Job) (o : JobOutcome) :
    (s.beside c l x).endsIn i j o = (s.endsIn i j o).beside c l x := rfl

@[simp] theorem State.readyAgain_beside (i : Nat) (j : Job) :
    (s.beside c l x).readyAgain i j = (s.readyAgain i j).beside c l x := rfl

@[simp] theorem State.freeRecord_beside (i : Nat) :
    (s.beside c l x).freeRecord i = (s.freeRecord i).beside c l x := rfl

end beside

/-- The effect of a report does not depend on the line's trip and telegrams, nor on the inputs noted. -/
theorem LegEffect.beside {s u : State} {i outcome position : Nat} {j : Job} (h : LegEffect s i j outcome position u)
    {c : Fin 8} {l : Line} (hlink : l.link = (s.line c).link) (hh : l.ctx.h = (s.line c).ctx.h)
    (hv : l.ctx.v = (s.line c).ctx.v) (x : List (Fin 8 × Nat)) :
    LegEffect (s.beside c l x) i j outcome position (u.beside c l x) := by
  have hstores {p : SlotPos} (hs : s.Stores i j p) : (s.beside c l x).Stores i j p :=
    ⟨hs.kind, hs.slot, hs.target, hs.held, hs.group, hs.link⟩
  have hretrieves {p : SlotPos} (hs : s.Retrieves i j p) : (s.beside c l x).Retrieves i j p :=
    ⟨hs.kind, hs.slot, hs.target, hs.held, hs.choice, hs.link⟩
  have hmoves {p q : SlotPos} (hm : s.Moves i j p q) : (s.beside c l x).Moves i j p q :=
    ⟨hm.kind, hm.source, hm.target, hm.apart, hm.out, hm.into, hm.choice, hm.group⟩
  have hchoose {u : State} {p : SlotPos} {r : Slot} (hu : u = (s.putSlot j.aisle p r).setJob i { j with slot := none }) :
      (u.beside c l x).chooseSlot j.aisle j.loadClass (0, 0) none = u.chooseSlot j.aisle j.loadClass (0, 0) none := by
    have hline : u.line c = s.line c := by rw [hu]; rfl
    exact State.chooseSlot_setLine (by rw [hlink, hline]) (by rw [hh, hline]) (by rw [hv, hline]) ..
  cases h with
  | stored hs => simpa using LegEffect.stored (hstores hs)
  | storeRefused hs hc => simpa using LegEffect.storeRefused (hstores hs) hc
  | storeChosenAgain hs hc hst hw hu hchoice =>
    simpa using LegEffect.storeChosenAgain (hstores hs) hc hst hw (by simp [hu]) ((hchoose hu).trans hchoice)
  | storeChosenWithdrawn hs hc hw => simpa using LegEffect.storeChosenWithdrawn (hstores hs) hc hw
  | storeWithoutRoom hs hc hst hw hp hu hchoice =>
    simpa using LegEffect.storeWithoutRoom (hstores hs) hc hst hw hp (by simp [hu]) ((hchoose hu).trans hchoice)
  | loadRefused hs => simpa using LegEffect.loadRefused (hstores hs)
  | retrieved hs hg => simpa using LegEffect.retrieved (hretrieves hs) hg
  | rankRetrieved hs hg ho hnext hr hahead =>
    simpa using LegEffect.rankRetrieved (hretrieves hs) hg ho hnext hr hahead
  | retrieveEmpty hs hg => simpa using LegEffect.retrieveEmpty (hretrieves hs) hg
  | moved hm hl => simpa using LegEffect.moved (hmoves hm) hl
  | moveEmpty hm hl => simpa using LegEffect.moveEmpty (hmoves hm) hl
  | moveBlocked hm hl => simpa using LegEffect.moveBlocked (hmoves hm) hl
  | returned ho hw hl => simpa using LegEffect.returned (s := s.beside c l x) ho hw hl
  | moveDropped ho hw hm hl => simpa using LegEffect.moveDropped ho hw (hmoves hm) hl
  | retrieveWithdrawn ho hw hs hg => simpa using LegEffect.retrieveWithdrawn ho hw (hretrieves hs) hg
  | storeWithdrawn ho hw hs => simpa using LegEffect.storeWithdrawn ho hw (hstores hs)
  | strands ho => simpa using LegEffect.strands (s := s.beside c l x) ho

@[simp] theorem State.endsIn_scratch (s : State) (i : Nat) (j : Job) (o : JobOutcome) :
    (s.endsIn i j o).scratch = s.scratch := rfl

@[simp] theorem State.readyAgain_scratch (s : State) (i : Nat) (j : Job) :
    (s.readyAgain i j).scratch = s.scratch := rfl

/-- While no job waits, a report gathers nothing. -/
theorem LegEffect.scratch_eq {s u : State} {i outcome position : Nat} {j : Job}
    (h : LegEffect s i j outcome position u) (hn : s.NoneWaits) : u.scratch = s.scratch := by
  cases h with
  | storeChosenAgain _ _ _ _ hu _ => simp [hu]
  | storeWithoutRoom _ _ _ _ _ hu _ => simp [hu]
  | moveDropped _ _ hm _ =>
    rw [State.freeRecord_of_noneWaits (s := (s.putSlot j.aisle _ _).putSlot j.aisle _ _) hn]
    simp
  | _ => simp

/-- A report applied beside a write of the line. -/
theorem State.applyReport_setLine {s u : State} {i outcome position : Nat} {j : Job} (hn : s.NoneWaits)
    (hp : j.state ≠ .pending) (hj : s.job i = some j) (h : LegEffect s i j outcome position u) {c : Fin 8} {l : Line}
    (hlink : l.link = (s.line c).link) (hh : l.ctx.h = (s.line c).ctx.h) (hv : l.ctx.v = (s.line c).ctx.v)
    (x : List (Fin 8 × Nat)) :
    ((s.setLine c l).noting x).applyReport i (legReport j.kind outcome position) = (u.setLine c l).noting x :=
  State.applyReport_of_legEffect (s := (s.setLine c l).noting x) hn hp hj (h.beside hlink hh hv x)

/-! ## LEG DONE (R132, R155, R157, R166) -/

theorem exec_legDone (c : Fin 8) (n k outcome position : Byte) (s : State) :
    exec (.legDone c n k outcome position) s = .next (s.event (fun t => t.craneTelegram c (fun u =>
      u.takeLegDone c n.toNat k.toNat outcome.toNat position.toNat))) := rfl

/-- The counter input of a leg's report, when it has one, as noted. -/
def reportInputs (c : Fin 8) (kind : JobKind) (r : LegReport) : List (Fin 8 × Nat) :=
  (legInput kind r).toList.map (fun code => (c, code))

theorem State.noteMaybe_legInput (s : State) (c : Fin 8) (kind : JobKind) (r : LegReport) :
    s.noteMaybe c (legInput kind r) = s.noting (reportInputs c kind r) := by
  cases h : legInput kind r with
  | none => simp [State.noteMaybe, reportInputs, h]
  | some code => simp [State.noteMaybe, reportInputs, h, State.noteInput_eq_noting]

/-- A LEG DONE of an open leg of a trip whose ORDER has been answered ends that leg (case 1 of R155). -/
theorem State.matchLegDone_ofLeg {s : State} {c : Fin 8} {t : Trip} {g : Leg} {n k : Nat}
    (hleg : (s.line c).openLeg n k = some (t, g)) (hsent : t.orderSent = true) (hx : (s.line c).exchange = none)
    (outcome position : Nat) : s.matchLegDone c n k outcome position = s.endLeg c g outcome position := by
  have hkind : (s.line c).exchangeKind ≠ some (.order n) := by simp [Line.exchangeKind, hx]
  simp only [State.matchLegDone, hleg, Option.filter_some, hsent, if_true, if_neg hkind]

/-- A late LEG DONE (case 2 of R155). -/
theorem State.matchLegDone_late {s : State} {c : Fin 8} {n k i : Nat} {j : Job} (ht : (s.line c).trip = none)
    (hj : s.strandedLeg c n k = some (i, j)) (outcome position : Nat) :
    s.matchLegDone c n k outcome position = s.lateReport c i j outcome position := by
  simp only [State.matchLegDone, Line.openLeg, ht, Option.filter_none, hj]

theorem State.noting_setLine_comm (s : State) (x : List (Fin 8 × Nat)) (c : Fin 8) (l : Line) :
    (s.noting x).setLine c l = (s.setLine c l).noting x := rfl

/-- The end of the one leg of a trip without transfer: the effect of the report, and the trip is cleared (R158). -/
theorem State.endLeg_one {s u : State} {c : Fin 8} {l : Line} {t : Trip} {k i outcome position : Nat} {j : Job}
    {w v : Bool} (hn : s.NoneWaits) (hp : j.state ≠ .pending) (hj : s.job i = some j)
    (h : LegEffect s i j outcome position u) (hlink : l.link = (s.line c).link) (hctx : l.ctx = (s.line c).ctx)
    (ht : l.trip = some t) (hx : t.transfer = none) (hlegs : t.legs = [⟨k, i, false, w, v⟩]) :
    (s.setLine c l).endLeg c ⟨k, i, false, w, v⟩ outcome position =
      (u.setLine c { l with trip := none, ctx := { l.ctx with work := .idle } }).noting
        (reportInputs c j.kind (legReport j.kind outcome position)) := by
  generalize hinputs : reportInputs c j.kind (legReport j.kind outcome position) = x
  generalize hm : ({ l with trip := some { t with legs := [⟨k, i, true, w, v⟩] } } : Line) = m
  have hfinish : (s.setLine c l).finishLeg c k = s.setLine c m := by
    rw [State.finishLeg_one (by rw [State.line_setLine]; exact ht) hlegs, State.line_setLine, State.setLine_setLine, hm]
  have hj' : (s.setLine c l).job i = some j := hj
  have hreport := State.applyReport_setLine (c := c) (l := m) hn hp hj h (by rw [← hm]; exact hlink)
    (by rw [← hm]; exact congrArg Context.h hctx) (by rw [← hm]; exact congrArg Context.v hctx) x
  have hover : (((u.setLine c m).noting x).line c).trip = some { t with legs := [⟨k, i, true, w, v⟩] } := by
    rw [State.line_noting, State.line_setLine, ← hm]
  simp only [State.endLeg, hj', hfinish, State.noteMaybe_legInput, hinputs, hreport]
  rw [State.clearIfOver_of_over hover hx rfl, State.dropTrip_eq, State.line_noting, State.line_setLine, ← hm,
    State.noting_setLine_comm, State.setLine_setLine]

theorem State.lateReport_setLine {s u : State} {c : Fin 8} {l : Line} {i outcome position : Nat} {j : Job}
    (hn : s.NoneWaits) (hp : j.state ≠ .pending) (hj : s.job i = some j) (h : LegEffect s i j outcome position u)
    (hlink : l.link = (s.line c).link) (hctx : l.ctx = (s.line c).ctx) :
    (s.setLine c l).lateReport c i j outcome position =
      (u.setLine c l).noting (reportInputs c j.kind (legReport j.kind outcome position)) := by
  simp only [State.lateReport, State.noteMaybe_legInput]
  exact State.applyReport_setLine hn hp hj h hlink (congrArg Context.h hctx) (congrArg Context.v hctx) _

/-- Settles O49: the report's effect stands beside the line's own, and no job waits for it. -/
theorem legDoneCompletesTheStore : Obligations.LegDoneCompletesTheStore := by
  intro c n k outcome position i j s u hS hnp hlink hx hstale hj heffect
  have hn := hnp.noneWaits
  have hp : j.state ≠ .pending := hnp (i, j) (mem_of_lookup i j s.jobs hj)
  have hu : u.scratch = .empty := (heffect.scratch_eq hn).trans hS.scratch
  generalize hl : ({ s.line c with
    silence := s.settings.pollInterval
    sent := (s.line c).sent ++ [Telegram.doneAck n.toNat k.toNat] } : Line) = l
  have hsent : (s.restartSilence c).send c (.doneAck n.toNat k.toNat) = s.setLine c l := by
    rw [State.send_eq, State.line_restartSilence, State.setLine_restartSilence, hl]
  have hllink : l.link = (s.line c).link := by rw [← hl]
  have hlctx : l.ctx = (s.line c).ctx := by rw [← hl]
  have hlx : ((s.setLine c l).line c).exchange = none := by rw [State.line_setLine, ← hl]; exact hx
  refine ⟨fun t w x htrip hnumber htransfer hacc hord hlegs hst => ?_, fun htrip hleg => ?_⟩
  · have hltrip : l.trip = some t := by rw [← hl]; exact htrip
    have hopen : ((s.setLine c l).line c).openLeg n.toNat k.toNat = some (t, ⟨k.toNat, i, false, w, x⟩) := by
      rw [State.line_setLine]; exact Line.openLeg_one hltrip hnumber hlegs
    refine completes_craneTelegram (x := reportInputs c j.kind (legReport j.kind outcome.toNat position.toNat))
      (exec_legDone c n k outcome position s) hlink ?_ hu ?_
    · rw [State.takeLegDone, hsent, State.matchLegDone_ofLeg hopen hord hlx,
        State.endLeg_one hn hp hj heffect hllink hlctx hltrip htransfer hlegs, ← hl]
    · rw [State.line_setLine]
      exact Line.nothingWaits_of_noTrip rfl hstale
  · have hltrip : ((s.setLine c l).line c).trip = none := by rw [State.line_setLine, ← hl]; exact htrip
    refine completes_craneTelegram (x := reportInputs c j.kind (legReport j.kind outcome.toNat position.toNat))
      (exec_legDone c n k outcome position s) hlink ?_ hu ?_
    · rw [State.takeLegDone, hsent, State.matchLegDone_late (s := s.setLine c l) hltrip hleg,
        State.lateReport_setLine hn hp hj heffect hllink hlctx]
    · rw [State.line_setLine, ← hl]
      exact Line.nothingWaits_of_noTrip htrip hstale

end Sys2Proof.Machine
end

section
/-! A telegram that fails its check (R115), and what an event whose one input is a bad frame makes of its crane's counters
(R148, R149, R150). -/

namespace Sys2Proof.Machine

/-! ## Bytes (R115, R186) -/

/-- A receiver that gathers byte by byte takes a whole frame once its last byte has come. -/
theorem foldl_gatherByte {σ : Type} {f : σ → Byte → σ} {gather take : List Byte → σ}
    (hmore : ∀ g b g', gatherByte g b = (g', none) → f (gather g) b = gather g')
    (hwhole : ∀ g b frame, gatherByte g b = ([], some frame) → f (gather g) b = take frame) {len : Byte}
    {rest : List Byte} (h : rest.length = len.toNat + 2) :
    (2 :: len :: rest).foldl f (gather []) = take (len :: rest) := by
  have hrest (got : List Byte) (hne : rest ≠ []) (hlen : got.length + rest.length = len.toNat + 2) :
      rest.foldl f (gather (2 :: len :: got)) = take (len :: (got ++ rest)) := by
    clear h
    induction rest generalizing got with
    | nil => exact absurd rfl hne
    | cons b bs ih =>
      rw [List.foldl_cons]
      cases bs with
      | nil =>
        exact hwhole _ b _ (by simpa [gatherByte] using hlen)
      | cons b' bs =>
        have hshort : ¬ got.length = len.toNat + 1 := by simp only [List.length_cons] at hlen; omega
        rw [hmore _ b (2 :: len :: (got ++ [b])) (by simp [gatherByte, hshort]),
          ih _ (by simp) (by simp only [List.length_append, List.length_cons, List.length_nil] at hlen ⊢; omega)]
        simp
  have hne : rest ≠ [] := by rintro rfl; simp at h
  rw [List.foldl_cons, hmore [] 2 [2] rfl, List.foldl_cons, hmore [2] len [2, len] (by simp [gatherByte]),
    hrest [] hne (by simpa using h)]
  rfl

theorem checkFrame_of_wrongCheck {low high : Nat} {len x y : Byte} {content : List Byte}
    (hlen : content.length = len.toNat) (h : [x, y] ≠ put2 (crc16 (len :: content)).toNat) :
    checkFrame low high (len :: (content ++ [x, y])) = none := by
  simp [checkFrame, ← hlen, h]

/-- A whole telegram that fails its check, on a crane line between telegrams, is a bad frame event. -/
theorem State.receiveCraneBytes_wrongCheck {s : State} {c : Fin 8} {len x y : Byte} {content : List Byte}
    (hg : (s.line c).gathered = []) (hlen : content.length = len.toNat)
    (h : [x, y] ≠ put2 (crc16 (len :: content)).toNat) :
    (2 :: len :: (content ++ [x, y])).foldl (fun t b => t.receiveCraneByte c b) s =
      s.event (fun t => t.badFrame c) := by
  have hs : s.setLine c { s.line c with gathered := [] } = s := by rw [← hg, State.setLine_line]
  have hfold := foldl_gatherByte (f := fun t b => State.receiveCraneByte t c b)
    (gather := fun g => s.setLine c { s.line c with gathered := g })
    (take := fun frame => (s.setLine c { s.line c with gathered := [] }).receiveCraneFrame c frame)
    (fun g b g' hb => by simp [State.receiveCraneByte, State.updateLine, hb])
    (fun g b frame hb => by simp [State.receiveCraneByte, State.updateLine, hb])
    (len := len) (rest := content ++ [x, y]) (by simp [hlen])
  rw [hs] at hfold
  rw [hfold, State.receiveCraneFrame, checkFrame_of_wrongCheck hlen h]

/-- On the car line it has no effect. -/
theorem State.receiveCarBytes_wrongCheck {s : State} {len x y : Byte} {content : List Byte} (hg : s.car.gathered = [])
    (hlen : content.length = len.toNat) (h : [x, y] ≠ put2 (crc16 (len :: content)).toNat) :
    (2 :: len :: (content ++ [x, y])).foldl State.receiveCarByte s = s := by
  have hs : s.updateCar (fun k => { k with gathered := [] }) = s := by
    have hcar : ({ s.car with gathered := [] } : Car) = s.car := by rw [← hg]
    simp only [State.updateCar, hcar]
  have hfold := foldl_gatherByte (f := State.receiveCarByte)
    (gather := fun g => s.updateCar (fun k => { k with gathered := g }))
    (take := fun frame => (s.updateCar (fun k => { k with gathered := [] })).receiveCarFrame frame)
    (fun g b g' hb => by simp [State.receiveCarByte, State.updateCar, hb])
    (fun g b frame hb => by simp [State.receiveCarByte, State.updateCar, hb])
    (len := len) (rest := content ++ [x, y]) (by simp [hlen])
  rw [hs] at hfold
  rw [hfold, State.receiveCarFrame, checkFrame_of_wrongCheck hlen h]

/-! ## Counters -/

@[simp] theorem Counter.count_select (k : Counter) : k.count.select = k.select := by
  unfold Counter.count
  split
  · rfl
  · cases k.mode <;> rfl

@[simp] theorem Counters.get_set (k : Counters) (id : CounterId) (x : Counter) : (k.set id x).get id = x := by
  cases id <;> rfl

theorem Counters.get_set_ne (k : Counters) {id other : CounterId} (x : Counter) (h : other ≠ id) :
    (k.set id x).get other = k.get other := by
  cases id <;> cases other <;> trivial

/-- Two counter sets select the same inputs and combine alike. -/
structure Counters.SameSettings (k l : Counters) : Prop where
  select : ∀ id, (k.get id).select = (l.get id).select
  combine0 : k.combine0 = l.combine0
  combine1 : k.combine1 = l.combine1

theorem Counters.SameSettings.refl (k : Counters) : k.SameSettings k := ⟨fun _ => rfl, rfl, rfl⟩

theorem Counters.SameSettings.set_count {k l : Counters} (h : k.SameSettings l) (id : CounterId) :
    (k.set id (k.get id).count).SameSettings l := by
  refine ⟨fun other => ?_, ?_, ?_⟩
  · rw [← h.select]
    by_cases ho : other = id
    · rw [ho, Counters.get_set, Counter.count_select]
    · rw [Counters.get_set_ne k _ ho]
  · rw [← h.combine0]; cases id <;> rfl
  · rw [← h.combine1]; cases id <;> rfl

theorem Counters.mem_order (k : Counters) (id : CounterId) : id ∈ k.order := by
  have hall : id ∈ allCounters := by cases id <;> decide
  cases h : k.readsEligible id <;> simp [Counters.order, hall, h]

theorem Counters.order_nodup (k : Counters) : k.order.Nodup := by
  have hall : allCounters.Nodup := by decide
  refine List.Nodup.append (hall.filter _) (hall.filter _) fun id hfirst hlast => ?_
  simp only [List.mem_filter, Bool.not_eq_true'] at hfirst hlast
  simp [hfirst.2] at hlast

/-! ## A state in which one crane's counters have counted -/

/-- The state `u` with the counters and the drained mark of crane `c`, and the alerts, as counting may leave them (R150). -/
def State.counted (u : State) (c : Fin 8) (k : Counters) (drained : Bool) (a : AlertSet) : State :=
  { u.setLine c { u.line c with counters := k, ctx := { (u.line c).ctx with drained := drained } } with
    host := { u.host with alerts := a } }

section counted

variable (u : State) (c : Fin 8) (k : Counters) (δ : Bool) (a : AlertSet)

theorem State.counted_self : u.counted c (u.line c).counters (u.line c).ctx.drained u.host.alerts = u :=
  State.setLine_line u c

@[simp] theorem State.line_counted : (u.counted c k δ a).line c =
    { u.line c with counters := k, ctx := { (u.line c).ctx with drained := δ } } := State.line_setLine u c _

theorem State.line_counted_ne {d : Fin 8} (h : d ≠ c) : (u.counted c k δ a).line d = u.line d :=
  State.line_setLine_ne u c d _ h

/-- One more count of a counter of the crane. -/
theorem State.bump_counted (id : CounterId) : (u.counted c k δ a).bump c id =
    u.counted c (k.set id (k.get id).count) (δ || (k.get id).drains)
      (if (k.get id).drains then a ||| alertBit .service else a) := by
  have hk : ((u.counted c k δ a).line c).counters = k := by rw [State.line_counted]
  have hput : (u.counted c k δ a).updateLine c (fun l => { l with counters := l.counters.set id (k.get id).count }) =
      u.counted c (k.set id (k.get id).count) δ a := by
    rw [State.updateLine, State.line_counted]
    exact congrArg (fun t : State => { t with host := { u.host with alerts := a } }) (State.setLine_setLine u c _ _)
  have hmark (l : Counters) : (u.counted c l δ a).updateCtx c (fun x => { x with drained := true }) =
      u.counted c l true a := by
    rw [State.updateCtx, State.updateLine, State.line_counted]
    exact congrArg (fun t : State => { t with host := { u.host with alerts := a } }) (State.setLine_setLine u c _ _)
  rcases State.bump_cases (u.counted c k δ a) c id with ⟨hd, h⟩ | ⟨hd, h⟩
  · rw [hk] at hd h
    rw [h, hput, hmark, hd, Bool.or_true, if_pos rfl]
    rfl
  · rw [hk] at hd h
    rw [h, hput, hd, Bool.or_false, if_neg (by simp)]

/-- The state inputs other than IDLE-eligible do not read what counting changes. -/
theorem State.inputHolds_counted {n : Nat} (hn : n ≠ 12) (d : Fin 8) :
    (u.counted c k δ a).inputHolds d n = u.inputHolds d n := by
  by_cases hd : d = c
  · subst hd
    simp only [State.inputHolds, State.line_counted, if_neg hn]
    rfl
  · simp only [State.inputHolds, State.line_counted_ne u c k δ a hd, if_neg hn]

variable {u c δ}

/-- Counting makes no crane eligible: it drains none but may drain its own (R55, R150). -/
theorem State.eligible_counted (hδ : (u.line c).ctx.drained = true → δ = true) {d : Fin 8}
    (h : (u.counted c k δ a).eligible d = true) : u.eligible d = true := by
  by_cases hd : d = c
  · subst hd
    have hnumber : ((u.counted d k δ a).nextTripNumber d).isSome = true → (u.nextTripNumber d).isSome = true := by
      simp only [State.nextTripNumber, State.line_counted]
      refine State.freeNumberFrom_mono _ _ d (fun n => ?_) _ _
      simp only [State.numberPassedOver, State.line_counted]
      exact id
    have hhand : (u.counted d k δ a).handAllows d = u.handAllows d := by
      simp only [State.handAllows, State.line_counted]
      rfl
    have hplace : (u.counted d k δ a).inConfiguredAisle d = u.inConfiguredAisle d := by
      simp only [State.inConfiguredAisle, State.line_counted]
      rfl
    have hmark : δ = false → (u.line d).ctx.drained = false := by cases δ <;> simp_all
    simp only [State.eligible, Bool.and_eq_true, Bool.not_eq_true', hhand, hplace, State.line_counted] at h ⊢
    obtain ⟨⟨⟨⟨⟨⟨⟨⟨⟨⟨⟨⟨h1, h2⟩, h3⟩, h4⟩, h5⟩, h6⟩, h7⟩, h8⟩, h9⟩, h10⟩, h11⟩, h12⟩, h13⟩ := h
    exact ⟨⟨⟨⟨⟨⟨⟨⟨⟨⟨⟨⟨h1, h2⟩, h3⟩, h4⟩, h5⟩, hnumber h6⟩, h7⟩, h8⟩, h9⟩, hmark h10⟩, h11⟩, h12⟩, h13⟩
  · exact State.eligible_mono (u.counted c k δ a) u d (State.line_counted_ne u c k δ a hd) rfl rfl rfl id (fun _ => id) h

theorem State.inputHolds_of_counted (hδ : (u.line c).ctx.drained = true → δ = true) {d : Fin 8} {n : Nat}
    (h : (u.counted c k δ a).inputHolds d n = true) : u.inputHolds d n = true := by
  by_cases hn : n = 12
  · subst hn
    exact State.eligible_counted k a hδ h
  · rwa [State.inputHolds_counted u c k δ a hn] at h

end counted

end Sys2Proof.Machine
end

section
/-! What an event whose one input is a bad frame makes of its crane's counters (R148, R149, R150), and the statement on it. -/

namespace Sys2Proof.Machine

/-! ## What a bad frame is counted as (R148, R149) -/

section amounts

variable {s t : State} {c d : Fin 8}

theorem State.occurrences_badFrame (hi : t.scratch.inputs = [(c, 8)]) (d : Fin 8) (n : Nat) :
    t.occurrences d n = if d = c ∧ n = 8 then 1 else 0 := by
  simp only [State.occurrences, hi, List.count_singleton, beq_iff_eq, Prod.mk.injEq]
  exact if_congr (and_congr eq_comm eq_comm) rfl rfl

/-- An A counter counts a bad frame, and no state input when the event makes none hold. -/
theorem State.amountA_badFrame (hi : t.scratch.inputs = [(c, 8)])
    (hh : ∀ n, t.inputHolds d n = true → s.inputHolds d n = true) (n : Nat) :
    s.amountA t d n = if d = c ∧ n = 8 then 1 else 0 := by
  rw [← State.occurrences_badFrame hi, State.amountA]
  split
  · next h => rw [h, State.occurrences_badFrame hi]; simp
  · split
    · next h =>
      have hother : n ≠ 8 := by rintro rfl; exact absurd h (by decide)
      rw [State.occurrences_badFrame hi, if_neg (fun h8 => hother h8.2)]
      cases hn : t.inputHolds d n with
      | false => rfl
      | true => simp [hh n hn]
    · rfl

/-- A B counter counts a bad frame, and no state input: no tenth of a second has passed. -/
theorem State.amountB_badFrame (hi : t.scratch.inputs = [(c, 8)]) (n : Nat) :
    t.amountB d n = if d = c ∧ n = 8 then 1 else 0 := by
  rw [← State.occurrences_badFrame hi, State.amountB]
  split
  · next h => rw [h, State.occurrences_badFrame hi]; simp
  · split
    · next h =>
      have hother : n ≠ 8 := by rintro rfl; exact absurd h (by decide)
      simp [State.occurrences_badFrame hi, hother]
    · rfl

theorem State.amount_badFrame (hi : t.scratch.inputs = [(c, 8)])
    (hh : ∀ n, t.inputHolds d n = true → s.inputHolds d n = true) (id : CounterId) :
    s.amount t d id =
      if d = c ∧ ((t.line d).counters.get id).select = 8 ∧ t.mayCount d id = true then 1 else 0 := by
  have hA (a b : Counter) (combine : Bool) : s.gatedA t d combine a b =
      if d = c ∧ a.select = 8 ∧ t.gateOpen d combine b = true then 1 else 0 := by
    rw [State.gatedA, State.amountA_badFrame hi hh]
    cases t.gateOpen d combine b <;> simp
  have hmay {n : Nat} {gate : Bool} : (n = 8 ∧ (n != 0 && !isStateInput n && gate) = true) ↔ n = 8 ∧ gate = true :=
    and_congr_right fun hn => by rw [hn]; rfl
  cases id <;>
    simp only [State.amount, State.mayCount, Counters.get, hA, State.amountB_badFrame hi, hmay, and_true]

end amounts

/-! ## The counters of the crane (R148, R149, R150) -/

/-- What a bad frame may make of counter `id` of crane `c`: at most one count, when it selects input 8; a counter that does
not read the crane's eligibility counts if and only if its gate is open (R149, assumption 12). -/
structure State.CountsBadFrame (u : State) (c : Fin 8) (id : CounterId) (x : Counter) : Prop where
  atMost : x = (u.line c).counters.get id ∨
    ((u.line c).counters.get id).select = 8 ∧ x = ((u.line c).counters.get id).count
  exactly : (u.line c).counters.readsEligible id = false → x =
    if ((u.line c).counters.get id).select = 8 ∧ u.mayCount c id = true then ((u.line c).counters.get id).count
    else (u.line c).counters.get id

/-- No counter that a bad frame counts on would drain its crane. -/
def Counters.Steady (k : Counters) : Prop := ∀ id, (k.get id).select = 8 → (k.get id).drains = false

/-- `t` is what counting the one bad frame has made of `u` so far: the counters are `k`, and the drained mark and the
alerts have grown only if a counter could drain the crane. -/
structure State.CountedTo (u : State) (c : Fin 8) (k : Counters) (t : State) : Prop where
  settings : k.SameSettings (u.line c).counters
  counted : ∃ δ a, t = u.counted c k δ a ∧ ((u.line c).ctx.drained = true → δ = true) ∧
    ((u.line c).counters.Steady → δ = (u.line c).ctx.drained ∧ a = u.host.alerts)

theorem State.CountedTo.refl (u : State) (c : Fin 8) : u.CountedTo c (u.line c).counters u :=
  ⟨.refl _, _, _, (State.counted_self u c).symm, id, fun _ => ⟨rfl, rfl⟩⟩

section counting

variable {u t : State} {c : Fin 8} {k : Counters}

theorem State.CountedTo.counters_eq (h : u.CountedTo c k t) : (t.line c).counters = k := by
  obtain ⟨-, δ, a, rfl, -, -⟩ := h
  rw [State.line_counted]

theorem State.CountedTo.line_ne (h : u.CountedTo c k t) {d : Fin 8} (hd : d ≠ c) : t.line d = u.line d := by
  obtain ⟨-, δ, a, rfl, -, -⟩ := h
  exact State.line_counted_ne u c k δ a hd

theorem State.CountedTo.scratch_eq (h : u.CountedTo c k t) : t.scratch = u.scratch := by
  obtain ⟨-, δ, a, rfl, -, -⟩ := h
  rfl

theorem State.CountedTo.inputHolds (h : u.CountedTo c k t) (d : Fin 8) (n : Nat) (hn : t.inputHolds d n = true) :
    u.inputHolds d n = true := by
  obtain ⟨-, δ, a, rfl, hδ, -⟩ := h
  exact State.inputHolds_of_counted k a hδ hn

/-- The gates that no drained mark can close stand as the event has left them (R149). -/
theorem State.CountedTo.mayCount_eq (h : u.CountedTo c k t) {id : CounterId}
    (hid : (u.line c).counters.readsEligible id = false) : t.mayCount c id = u.mayCount c id := by
  obtain ⟨⟨hselect, hcombine0, hcombine1⟩, δ, a, rfl, -, -⟩ := h
  have hgate {combine : Bool} {x y : Counter} (hxy : x.select = y.select) (hy : combine = true → y.select ≠ 12) :
      (u.counted c k δ a).gateOpen c combine x = u.gateOpen c combine y := by
    cases combine with
    | false => rfl
    | true => simp only [State.gateOpen, hxy, State.inputHolds_counted u c k δ a (hy rfl)]
  simp only [State.mayCount, State.line_counted, hselect]
  cases id with
  | a0 =>
    rw [hcombine0]
    exact congrArg (_ && ·) (hgate (y := (u.line c).counters.b0) (hselect .b0) fun hc h12 => by
      simp [Counters.readsEligible, hc, h12] at hid)
  | b0 => rfl
  | a1 =>
    rw [hcombine1]
    exact congrArg (_ && ·) (hgate (y := (u.line c).counters.b1) (hselect .b1) fun hc h12 => by
      simp [Counters.readsEligible, hc, h12] at hid)
  | b1 => rfl

/-- One counter counts what there is to count. -/
theorem State.CountedTo.countCounter {s : State} (hi : u.scratch.inputs = [(c, 8)])
    (hh : ∀ n, u.inputHolds c n = true → s.inputHolds c n = true) (h : u.CountedTo c k t) {id : CounterId}
    (hid : k.get id = (u.line c).counters.get id) :
    ∃ x, u.CountsBadFrame c id x ∧ u.CountedTo c (k.set id x) (s.countCounter c t id) := by
  have hamount := State.amount_badFrame (s := s) (t := t) (c := c) (d := c) (by rw [h.scratch_eq]; exact hi)
    (fun n hn => hh n (h.inputHolds c n hn)) id
  rw [h.counters_eq, hid] at hamount
  by_cases hfires : ((u.line c).counters.get id).select = 8 ∧ t.mayCount c id = true
  · rw [if_pos ⟨rfl, hfires⟩] at hamount
    refine ⟨(k.get id).count, ⟨.inr ⟨hfires.1, by rw [hid]⟩, fun hfree => ?_⟩, h.settings.set_count id, ?_⟩
    · rw [← h.mayCount_eq hfree, if_pos hfires, hid]
    · obtain ⟨-, δ, a, rfl, hδ, hsteady⟩ := h
      refine ⟨_, _, (by simp only [State.countCounter, hamount, State.bumpTimes]; exact State.bump_counted u c k δ a id),
        fun hd => by rw [hδ hd, Bool.true_or], fun hs => ?_⟩
      have hstill : (k.get id).drains = false := by rw [hid]; exact hs id hfires.1
      simpa [hstill] using hsteady hs
  · rw [if_neg (fun hf => hfires hf.2)] at hamount
    have hsame : s.countCounter c t id = t := by simp only [State.countCounter, hamount, State.bumpTimes]
    have hset : k.set id (k.get id) = k := by cases id <;> rfl
    refine ⟨k.get id, ⟨.inl hid, fun hfree => ?_⟩, ?_⟩
    · rw [← h.mayCount_eq hfree, if_neg hfires, hid]
    · rw [hsame, hset]; exact h

/-- Counters that count one after another, each once. -/
theorem State.CountedTo.foldl {s : State} (hi : u.scratch.inputs = [(c, 8)])
    (hh : ∀ n, u.inputHolds c n = true → s.inputHolds c n = true) {ids : List CounterId} (hids : ids.Nodup)
    (h : u.CountedTo c k t) (hsame : ∀ id ∈ ids, k.get id = (u.line c).counters.get id) :
    ∃ k', u.CountedTo c k' (ids.foldl (s.countCounter c) t) ∧ (∀ id ∈ ids, u.CountsBadFrame c id (k'.get id)) ∧
      ∀ id, id ∉ ids → k'.get id = k.get id := by
  induction ids generalizing k t with
  | nil => exact ⟨k, h, by simp, fun _ _ => rfl⟩
  | cons id ids ih =>
    obtain ⟨hnew, hrest⟩ := List.nodup_cons.1 hids
    obtain ⟨x, hx, hcounted⟩ := h.countCounter hi hh (hsame id (by simp))
    have hothers (other : CounterId) (ho : other ≠ id) : (k.set id x).get other = k.get other :=
      Counters.get_set_ne k x ho
    obtain ⟨k', hk', houtcomes, hkept⟩ := ih hrest hcounted fun other ho => by
      rw [hothers other (fun he => hnew (he ▸ ho)), hsame other (by simp [ho])]
    refine ⟨k', hk', fun other ho => ?_, fun other ho => ?_⟩
    · rcases List.mem_cons.1 ho with rfl | ho
      · rw [hkept other hnew, Counters.get_set]; exact hx
      · exact houtcomes other ho
    · obtain ⟨hne, hnot⟩ := not_or.1 (fun h' => ho (List.mem_cons.2 h'))
      rw [hkept other hnot, hothers other hne]

/-- Counters of the other cranes count nothing. -/
theorem State.CountedTo.countLine_ne {s : State} (hi : u.scratch.inputs = [(c, 8)])
    (hh : ∀ d n, u.inputHolds d n = true → s.inputHolds d n = true) (h : u.CountedTo c k t) {d : Fin 8} (hd : d ≠ c) :
    s.countLine t d = t := by
  refine foldl_same _ _ (fun id => ?_) _
  have hamount := State.amount_badFrame (s := s) (t := t) (c := c) (d := d) (by rw [h.scratch_eq]; exact hi)
    (fun n hn => hh d n (h.inputHolds d n hn)) id
  rw [if_neg (fun hf => hd hf.1)] at hamount
  simp only [State.countCounter, hamount, State.bumpTimes]

end counting

/-- Of functions of which all but one leave the state, that one is what the fold makes. -/
theorem foldl_only {σ β : Type} {f : σ → β → σ} {t : σ} {x : β} {l : List β} (hx : x ∈ l) (hl : l.Nodup)
    (hbefore : ∀ y, y ≠ x → f t y = t) (hafter : ∀ y, y ≠ x → f (f t x) y = f t x) : l.foldl f t = f t x := by
  have hkeep {v : σ} (hv : ∀ y, y ≠ x → f v y = v) (m : List β) (hm : x ∉ m) : m.foldl f v = v := by
    induction m with
    | nil => rfl
    | cons y ys ih =>
      obtain ⟨hy, hys⟩ := not_or.1 (fun h => hm (List.mem_cons.2 h))
      rw [List.foldl_cons, hv y (Ne.symm hy), ih hys]
  obtain ⟨before, after, rfl⟩ := List.append_of_mem hx
  have hnot : x ∉ before ∧ x ∉ after := by
    simp only [List.nodup_append, List.nodup_cons, List.mem_cons] at hl
    exact ⟨fun hb => hl.2.2 x hb x (.inl rfl) rfl, hl.2.1.1⟩
  rw [List.foldl_append, hkeep hbefore before hnot.1, List.foldl_cons, hkeep hafter after hnot.2]

/-- The counting of an event whose one input is a bad frame of crane `c`. -/
theorem State.countInputs_badFrame {s u : State} {c : Fin 8} (hi : u.scratch.inputs = [(c, 8)])
    (hh : ∀ d n, u.inputHolds d n = true → s.inputHolds d n = true) :
    ∃ k, u.CountedTo c k (u.countInputs s) ∧ ∀ id, u.CountsBadFrame c id (k.get id) := by
  obtain ⟨k, hk, houtcomes, -⟩ := State.CountedTo.foldl (s := s) hi (hh c) (Counters.order_nodup (u.line c).counters)
    (State.CountedTo.refl u c) (fun _ _ => rfl)
  have hall : u.countInputs s = s.countLine u c :=
    foldl_only ((by decide : ∀ d, d ∈ allCranes) c) (by decide)
      (fun d hd => (State.CountedTo.refl u c).countLine_ne hi hh hd) (fun d hd => hk.countLine_ne hi hh hd)
  exact ⟨k, hall ▸ hk, fun id => houtcomes id (Counters.mem_order _ id)⟩

/-- A counter that selects input 8, and whose counting does not read the crane's eligibility, counts when its gate is open;
one that selects another input counts nothing. -/
theorem State.CountsBadFrame.of_gate {u : State} {c : Fin 8} {id : CounterId} {x : Counter} {gate : Bool}
    (h : u.CountsBadFrame c id x) (hgate : ((u.line c).counters.get id).select = 8 →
      (u.line c).counters.readsEligible id = false ∧ u.mayCount c id = gate) :
    x = if ((u.line c).counters.get id).select = 8 ∧ gate = true then ((u.line c).counters.get id).count
      else (u.line c).counters.get id := by
  by_cases h8 : ((u.line c).counters.get id).select = 8
  · obtain ⟨hfree, hopen⟩ := hgate h8
    rw [h.exactly hfree, hopen]
  · rw [if_neg (fun hc => h8 hc.1)]
    exact h.atMost.resolve_right (fun hc => h8 hc.1)

theorem State.CountsBadFrame.of_otherInput {u : State} {c : Fin 8} {id : CounterId} {x : Counter}
    (h : u.CountsBadFrame c id x) (h8 : ((u.line c).counters.get id).select ≠ 8) :
    x = (u.line c).counters.get id := h.atMost.resolve_right (fun hc => h8 hc.1)

/-! ## The end of the event -/

/-- The end of an event that notes no job and no line: the counters count, and the conditions are taken afresh. -/
theorem State.finish_untold {u : State} (s : State) (hq : u.Quiet) (ht : u.scratch.told = []) :
    u.finish s = ({ u.countInputs s with scratch := .empty } : State).takeConditions := by
  have hscratch := (State.countInputs_rest u s).1
  rw [State.finish_eq, State.settleEvaluations_quiet u hq]
  generalize u.countInputs s = v at hscratch ⊢
  rw [foldl_same _ v (fun c => by rw [State.tellLine, hscratch, ht]; rfl) allCranes]

theorem State.line_finish_untold {u : State} (s : State) (hq : u.Quiet) (ht : u.scratch.told = []) (d : Fin 8) :
    (u.finish s).line d = (u.countInputs s).line d := by
  rw [State.finish_untold s hq ht]
  generalize u.countInputs s = v
  rfl

theorem State.anyLine_setLine {s : State} {c : Fin 8} {l : Line} {p : Line → Bool} (h : p l = p (s.line c)) :
    (s.setLine c l).anyLine p = s.anyLine p := by
  have hp (d : Fin 8) : p ((s.setLine c l).line d) = p (s.line d) := by
    by_cases hd : d = c
    · rw [hd, State.line_setLine, h]
    · rw [State.line_setLine_ne _ _ _ _ hd]
  simp only [State.anyLine, hp]

/-- The conditions read a line's link and context (R173). -/
theorem State.heldConditions_setLine {s : State} {c : Fin 8} {l : Line} (hlink : l.link = (s.line c).link)
    (hctx : l.ctx = (s.line c).ctx) : (s.setLine c l).heldConditions = s.heldConditions := by
  have hbit (a : Alert) : (s.setLine c l).conditionBit a = s.conditionBit a := by
    have hheld : (s.setLine c l).conditionHeld a = s.conditionHeld a := by
      cases a with
      | craneLost => exact State.anyLine_setLine (p := fun l => l.link == .lost) (by simp only [hlink])
      | craneFault =>
        exact State.anyLine_setLine (p := fun l => l.ctx.latched != 0 || l.ctx.conflict) (by simp only [hctx])
      | service => exact State.anyLine_setLine (p := fun l => l.ctx.drained) (by simp only [hctx])
      | _ => rfl
    rw [State.conditionBit, hheld, State.conditionBit]
  simp only [State.heldConditions, hbit]

/-- Counters that count without draining the crane are all that such an event changes. -/
theorem State.CountedTo.finish_steady {s t : State} {c : Fin 8} {k : Counters} (hS : s.Settled)
    (h : (s.noteInput c 8).CountedTo c k t) (hsteady : (s.line c).counters.Steady) :
    ({ t with scratch := .empty } : State).takeConditions = s.setLine c { s.line c with counters := k } := by
  obtain ⟨-, δ, a, rfl, -, hkept⟩ := h
  obtain ⟨rfl, rfl⟩ := hkept hsteady
  have hcleared : ({ (s.noteInput c 8).counted c k (s.line c).ctx.drained s.host.alerts with scratch := .empty } : State) =
      s.setLine c { s.line c with counters := k } := by rw [← hS.scratch]; rfl
  exact (congrArg State.takeConditions hcleared).trans (State.takeConditions_fresh _
    (hS.conditions.trans (State.heldConditions_setLine (s := s) (l := { s.line c with counters := k }) rfl rfl).symm)
    hS.attention)

/-- What a bad frame event of crane `c` makes of `s` (R115, R148, R149, R150). -/
structure State.TakesBadFrame (s : State) (c : Fin 8) (t : State) : Prop where
  settled : t.Settled
  bare : t.bare = s.bare
  grows : s.Grows t
  disp : t.disp = s.disp
  others : ∀ d, d ≠ c → t.line d = s.line d
  settings : (t.line c).counters.SameSettings (s.line c).counters
  counts : ∀ id, s.CountsBadFrame c id ((t.line c).counters.get id)
  steady : (s.line c).counters.Steady → t = s.setLine c { s.line c with counters := (t.line c).counters }

theorem State.inputHolds_noteInput (s : State) (c d : Fin 8) (m n : Nat) :
    (s.noteInput c m).inputHolds d n = s.inputHolds d n :=
  Bool.eq_iff_iff.2 ⟨State.inputHolds_scratch (s.noteInput c m) s.scratch d n,
    State.inputHolds_scratch s (s.noteInput c m).scratch d n⟩

theorem State.mayCount_noteInput (s : State) (c d : Fin 8) (m : Nat) (id : CounterId) :
    (s.noteInput c m).mayCount d id = s.mayCount d id := by
  have hgate (combine : Bool) (b : Counter) : (s.noteInput c m).gateOpen d combine b = s.gateOpen d combine b := by
    simp only [State.gateOpen, State.inputHolds_noteInput]
  cases id with
  | a0 => exact congrArg (_ && ·) (hgate _ _)
  | b0 => rfl
  | a1 => exact congrArg (_ && ·) (hgate _ _)
  | b1 => rfl

theorem State.event_badFrame {s : State} (hS : s.Settled) (c : Fin 8) :
    s.TakesBadFrame c (s.event (fun t => t.badFrame c)) := by
  have hi : (s.noteInput c 8).scratch.inputs = [(c, 8)] := by rw [State.noteInput_scratch, hS.scratch]; rfl
  have hq : (s.noteInput c 8).Quiet := by simp [State.Quiet, hS.scratch, Scratch.empty]
  have ht : (s.noteInput c 8).scratch.told = [] := by simp [hS.scratch, Scratch.empty]
  obtain ⟨k, hcounted, hcounts⟩ := State.countInputs_badFrame (s := s) hi
    (fun d n h => by rwa [State.inputHolds_noteInput] at h)
  have hevent : s.event (fun t => t.badFrame c) = (s.noteInput c 8).finish s := rfl
  have hbare : (s.noteInput c 8).bare = s.bare := rfl
  have hgrows : s.Grows (s.noteInput c 8) := State.Grows.refl s
  have hline := State.line_finish_untold s hq ht
  have hk : (((s.noteInput c 8).finish s).line c).counters = k := by rw [hline, hcounted.counters_eq]
  rw [hevent]
  refine ⟨State.finish_settled _ s, (State.finish_bare _ s hq).trans hbare, hgrows.trans (State.finish_grows _ s hq),
    State.finish_disp _ s hq ht, fun d hd => (hline d).trans (hcounted.line_ne hd), ?_, fun id => ?_, fun hsteady => ?_⟩
  · rw [hk]
    exact hcounted.settings
  · rw [hk]
    exact ⟨(hcounts id).atMost, fun hfree => State.mayCount_noteInput s c c 8 id ▸ (hcounts id).exactly hfree⟩
  · rw [hk, State.finish_untold s hq ht]
    exact hcounted.finish_steady hS hsteady

theorem exec_telegramDiscarded_crane (c : Fin 8) (bytes : List Byte) (s : State) :
    exec (.telegramDiscarded (.crane c) bytes) s = .next (bytes.foldl (fun t b => t.receiveCraneByte c b) s) := rfl

theorem exec_telegramDiscarded_car (bytes : List Byte) (s : State) :
    exec (.telegramDiscarded .car bytes) s = .next (bytes.foldl State.receiveCarByte s) := rfl

/-- Settles O51: the bytes make up one frame that fails its check, and the event counts it on the one crane. -/
theorem badTelegramIsDiscarded : Obligations.BadTelegramIsDiscarded := by
  intro len x y content s hS _ _ hlen hcheck
  refine ⟨fun c k hg hk => ?_, fun hg => ?_⟩
  · have hexec : exec (.telegramDiscarded (.crane c) (2 :: len :: content ++ [x, y])) s =
        .next (s.event (fun t => t.badFrame c)) :=
      (exec_telegramDiscarded_crane c _ s).trans
        (congrArg Host.Outcome.next (State.receiveCraneBytes_wrongCheck hg hlen hcheck))
    have h := State.event_badFrame hS c
    generalize s.event (fun t => t.badFrame c) = t at hexec h
    subst hk
    have hA0 (hb : (s.line c).counters.combine0 = true → (s.line c).counters.b0.select ≠ 12) :=
      (h.counts .a0).of_gate (gate := s.gateOpen c (s.line c).counters.combine0 (s.line c).counters.b0) fun h8 =>
        ⟨by simp_all [Counters.readsEligible, Counters.get], by simp [State.mayCount, h8, isStateInput]⟩
    have hA1 (hb : (s.line c).counters.combine1 = true → (s.line c).counters.b1.select ≠ 12) :=
      (h.counts .a1).of_gate (gate := s.gateOpen c (s.line c).counters.combine1 (s.line c).counters.b1) fun h8 =>
        ⟨by simp_all [Counters.readsEligible, Counters.get], by simp [State.mayCount, h8, isStateInput]⟩
    have hB0 := (h.counts .b0).of_gate (gate := true) fun h8 =>
      ⟨by simp_all [Counters.readsEligible, Counters.get], by simp [State.mayCount, h8, isStateInput]⟩
    have hB1 := (h.counts .b1).of_gate (gate := true) fun h8 =>
      ⟨by simp_all [Counters.readsEligible, Counters.get], by simp [State.mayCount, h8, isStateInput]⟩
    exact ⟨t, hexec, h.settled, h.bare, h.grows, h.disp, h.others, h.settings.combine0, h.settings.combine1,
      by simpa [Counters.get] using hB0, by simpa [Counters.get] using hB1,
      fun hc => by simpa [State.gateOpen, Counters.get, hc] using hA0 (by simp [hc]),
      fun hc => by simpa [State.gateOpen, Counters.get, hc] using hA1 (by simp [hc]),
      fun hc hb => by simpa [State.gateOpen, Counters.get, hc] using hA0 (fun _ => hb),
      fun hc hb => by simpa [State.gateOpen, Counters.get, hc] using hA1 (fun _ => hb),
      (h.counts .a0).of_otherInput, (h.counts .a1).of_otherInput, h.steady⟩
  · exact (exec_telegramDiscarded_car _ s).trans
      (congrArg Host.Outcome.next (State.receiveCarBytes_wrongCheck hg hlen hcheck))

end Sys2Proof.Machine
end

section
/-! The statements on the counters' requests: SET COUNTERS and READ COUNTERS (R151, R152). -/

namespace Sys2Proof.Machine

theorem readCounters_of_fields {b : List Byte} {x y z w : Counter} {f g : Bool} (hx : readCounter b 1 = some x)
    (hy : readCounter b 7 = some y) (hz : readCounter b 13 = some z) (hw : readCounter b 19 = some w)
    (hf : byteAt b 25 = f.toNat) (hg : byteAt b 26 = g.toNat) : readCounters b = some ⟨x, y, z, w, f, g⟩ := by
  simp only [readCounters, hx, hy, hz, hw, readFlag_toNat hf, readFlag_toNat hg]

theorem State.serveSetCounters_of_counters {s : State} {b : List Byte} {c : Fin 8} {k : Counters}
    (hc : byteAt b 0 = c.val) (hk : readCounters b = some k) :
    s.serveSetCounters b = accept (s.setLine c { s.line c with counters := k }) (fun _ => k.put) := by
  simp only [State.serveSetCounters, readCrane_of_crane c hc, hk]
  rfl

theorem State.serveReadCounters_kept {s : State} {b : List Byte} {c : Fin 8} (hc : byteAt b 0 = c.val)
    (hclear : byteAt b 1 = 0) : s.serveReadCounters b = accept s (fun _ => (s.line c).counters.put) := by
  simp only [State.serveReadCounters, readCrane_of_crane c hc, readFlag_toNat (e := false) hclear, Bool.false_eq_true,
    if_false]

theorem State.serveReadCounters_cleared {s : State} {b : List Byte} {c : Fin 8} (hc : byteAt b 0 = c.val)
    (hclear : byteAt b 1 = 1) : s.serveReadCounters b =
      accept (s.setLine c { s.line c with counters := (s.line c).counters.cleared })
        (fun _ => (s.line c).counters.put) := by
  simp only [State.serveReadCounters, readCrane_of_crane c hc, readFlag_toNat (e := true) hclear, if_true]
  rfl

/-- Settles O55: either request ends its event itself, so that its reply meets what it has written and nothing else. -/
theorem countersAreSetAndRead : Obligations.CountersAreSetAndRead := by
  intro n b c k s hc hk
  subst hk
  have hset : requestRow 0x73 = some (everyPhase 0x73 27) := by decide
  have hread : requestRow 0x74 = some (everyPhase 0x74 2) := by decide
  refine ⟨fun x y z w f g hlen hx hy hz hw hf hg hturn => ?_, fun hlen hturn => ⟨fun hkeep => ?_, fun hclear => ?_⟩⟩
  · exact exec_served rfl hturn (lengthAgrees_everyPhase hset hlen) (admitted_everyPhase _ hset)
      (State.serveSetCounters_of_counters hc (readCounters_of_fields hx hy hz hw hf hg)) rfl
  · exact exec_served rfl hturn (lengthAgrees_everyPhase hread hlen) (admitted_everyPhase _ hread)
      (State.serveReadCounters_kept hc hkeep) rfl
  · exact exec_served rfl hturn (lengthAgrees_everyPhase hread hlen) (admitted_everyPhase _ hread)
      (State.serveReadCounters_cleared hc hclear) rfl

end Sys2Proof.Machine
end

section
/-! The statement on the marks of a crane context: SET CRANE and CLEAR FAULTS (R144, R145). -/

namespace Sys2Proof.Machine

/-! ## What the end of an event leaves of a line and of the port -/

theorem State.line_bare (s : State) (c : Fin 8) : s.bare.line c = (s.line c).bare := by
  simp [State.line, State.bare, Vector.get_eq_getElem]

theorem State.bareLine_of_bare {s t : State} (h : s.bare = t.bare) (c : Fin 8) : (s.line c).bare = (t.line c).bare := by
  rw [← State.line_bare, h, State.line_bare]

theorem State.replies_of_bare {s t : State} (h : s.bare = t.bare) : s.host.replies = t.host.replies := by
  show s.bare.host.replies = t.bare.host.replies
  rw [h]

theorem State.slots_of_bare {s t : State} (h : s.bare = t.bare) : s.slots = t.slots := by
  show s.bare.slots = t.bare.slots
  rw [h]

theorem State.aisles_of_bare {s t : State} (h : s.bare = t.bare) : s.aisles = t.aisles := by
  show s.bare.aisles = t.bare.aisles
  rw [h]

/-- Lines that differ in no more than what the end of an event may change have one context but for the drained mark. -/
theorem Line.ctx_of_bare {l m : Line} (h : l.bare = m.bare) : l.ctx = { m.ctx with drained := l.ctx.drained } := by
  have hctx : ({ l.ctx with drained := false } : Context) = { m.ctx with drained := false } := congrArg Line.ctx h
  exact congrArg (fun x : Context => { x with drained := l.ctx.drained }) hctx

/-- Working out eligibility changes no line. -/
theorem State.tellLines_lines (b : State) (l : List (Fin 8)) (t : State) : (l.foldl b.tellLine t).lines = t.lines := by
  induction l generalizing t with
  | nil => rfl
  | cons c cs ih =>
    rw [List.foldl_cons, ih, State.tellLine]
    split <;> rfl

/-- At the end of an event that notes no job, counting alone changes lines. -/
theorem State.line_finish {u : State} (s : State) (hq : u.Quiet) (d : Fin 8) :
    (u.finish s).line d = (u.countInputs s).line d := by
  have hlines := State.tellLines_lines s allCranes (u.countInputs s)
  rw [State.finish_eq, State.settleEvaluations_quiet u hq]
  generalize u.countInputs s = v at hlines ⊢
  generalize allCranes.foldl s.tellLine v = w at hlines ⊢
  exact congrArg (fun lines : Vector Line 8 => lines.get d) hlines

/-! ## What counting leaves of the drained mark (R150) -/

/-- A property that each step keeps, a fold keeps. -/
theorem foldl_keeps {σ β : Type} {f : σ → β → σ} (P : σ → Prop) (h : ∀ t x, P t → P (f t x)) (l : List β) {t : σ}
    (ht : P t) : P (l.foldl f t) := by
  induction l generalizing t with
  | nil => exact ht
  | cons x xs ih => exact ih (h t x ht)

/-- A property that one count of any counter of crane `c` keeps, the crane's counting keeps. -/
theorem State.countLine_keeps (P : State → Prop) {c : Fin 8} (h : ∀ t id, P t → P (State.bump t c id)) (b : State)
    {t : State} (ht : P t) : P (b.countLine t c) := by
  have htimes (id : CounterId) (n : Nat) {v : State} (hv : P v) : P (v.bumpTimes c id n) := by
    induction n generalizing v with
    | zero => exact hv
    | succ n ih => exact ih (h v id hv)
  exact foldl_keeps P (fun _ id hv => htimes id _ hv) _ ht

/-- One more count of a counter, as one write. -/
theorem State.bump_eq_counted (s : State) (c : Fin 8) (id : CounterId) : s.bump c id =
    s.counted c ((s.line c).counters.set id ((s.line c).counters.get id).count)
      ((s.line c).ctx.drained || ((s.line c).counters.get id).drains)
      (if ((s.line c).counters.get id).drains then s.host.alerts ||| alertBit .service else s.host.alerts) := by
  conv_lhs => rw [← State.counted_self s c]
  exact State.bump_counted s c _ _ _ id

theorem State.countLine_line_ne (b t : State) {c d : Fin 8} (h : d ≠ c) : (b.countLine t c).line d = t.line d :=
  State.countLine_keeps (fun v => v.line d = t.line d)
    (fun v id hv => by rw [State.bump_eq_counted, State.line_counted_ne v c _ _ _ h, hv]) b rfl

/-- Counting clears no drained mark. -/
theorem State.countInputs_drained (u s : State) (d : Fin 8) (h : (u.line d).ctx.drained = true) :
    ((u.countInputs s).line d).ctx.drained = true := by
  rw [State.countInputs]
  refine foldl_keeps (fun t : State => (t.line d).ctx.drained = true) (fun t c ht => ?_) allCranes h
  by_cases hd : d = c
  · subst hd
    refine State.countLine_keeps (fun v => (v.line d).ctx.drained = true) (fun v id hv => ?_) s ht
    rw [State.bump_eq_counted, State.line_counted, hv, Bool.true_or]
  · rw [State.countLine_line_ne s t hd]
    exact ht

/-- An event without event inputs is no occasion to count for a counter that selects no state input (R148). -/
theorem State.amount_ofEventInput {b t : State} {c : Fin 8} {id : CounterId} (hi : t.scratch.inputs = [])
    (h : isStateInput ((t.line c).counters.get id).select = false) : b.amount t c id = 0 := by
  have hgated {x y : Counter} (combine : Bool) (hx : isStateInput x.select = false) : b.gatedA t c combine x y = 0 := by
    rw [State.gatedA, State.amountA]
    simp [hx, State.occurrences, hi]
  cases id with
  | a0 => exact hgated _ h
  | b0 => exact State.amountB_plain t c _ hi
  | a1 => exact hgated _ h
  | b1 => exact State.amountB_plain t c _ hi

/-- Such an event leaves the line of a crane none of whose counters selects a state input. -/
theorem State.countInputs_line_ofEventInputs {u : State} (s : State) {c : Fin 8} (hi : u.scratch.inputs = [])
    (h : ∀ id, isStateInput ((u.line c).counters.get id).select = false) : (u.countInputs s).line c = u.line c := by
  refine (foldl_keeps (fun t : State => t.scratch.inputs = [] ∧ t.line c = u.line c) (fun t d ht => ?_) _ ⟨hi, rfl⟩).2
  obtain ⟨hinputs, hline⟩ := ht
  by_cases hd : d = c
  · subst hd
    have hamount (id : CounterId) : s.amount t d id = 0 := State.amount_ofEventInput hinputs (by rw [hline]; exact h id)
    have hnone : s.countLine t d = t :=
      foldl_same _ t (fun id => by simp only [State.countCounter, hamount, State.bumpTimes]) _
    rw [hnone]
    exact ⟨hinputs, hline⟩
  · have hscratch : (s.countLine t d).scratch = t.scratch :=
      (foldl_rest _ (fun _ _ => State.bumpTimes_rest _ _ _ _) _ t).1
    exact ⟨by rw [hscratch]; exact hinputs, (State.countLine_line_ne s t (Ne.symm hd)).trans hline⟩

/-! ## Requests that change a context -/

/-- A request whose owner writes one line and notes it: the end of the event leaves that write but for counters and drained
marks, clears no drained mark, and leaves the line whole when no counter of it selects a state input. -/
theorem exec_lineWritten {i : Instr} {s : State} {r : Request} {f : State → Served} {body : State → List Byte} {c : Fin 8}
    {l : Line} (hS : s.Settled) (he : exec i s = .next (s.hostRequest r (fun t => t.handle r f))) (ht : s.hasTurn r)
    (hl : lengthAgrees r.code r.body = true) (hp : admitted r.code s.phase = true)
    (hv : f s.popRequest = accept ((s.popRequest.setLine c l).noteLine c) body) :
    ∃ v : State, exec i s = .next (v.answer r .ok (body v)) ∧ v.Settled ∧ v.bare = (s.popRequest.setLine c l).bare ∧
      (s.popRequest.setLine c l).Grows v ∧ (l.ctx.drained = true → (v.line c).ctx.drained = true) ∧
      ((∀ id, isStateInput (l.counters.get id).select = false) → v.line c = l) := by
  have hu : ((s.popRequest.setLine c l).noteLine c).line c = l := by rw [State.line_noteLine, State.line_setLine]
  have hinputs : ((s.popRequest.setLine c l).noteLine c).scratch.inputs = [] := congrArg Scratch.inputs hS.scratch
  have hq : ((s.popRequest.setLine c l).noteLine c).Quiet :=
    ⟨congrArg Scratch.own hS.scratch, congrArg Scratch.collected hS.scratch⟩
  have hnoted : (s.popRequest.setLine c l).Grows ((s.popRequest.setLine c l).noteLine c) :=
    State.Grows.refl (s.popRequest.setLine c l)
  refine ⟨((s.popRequest.setLine c l).noteLine c).finish s.popRequest, ?_, State.finish_settled _ _,
    State.finish_bare _ _ hq, hnoted.trans (State.finish_grows _ s.popRequest hq), fun hdrained => ?_, fun hevents => ?_⟩
  · rw [he, State.hostRequest_of_turn _ _ _ ht, State.handle_ok s.popRequest r f _ hl hp hv rfl]
    rfl
  · rw [State.line_finish _ hq]
    exact State.countInputs_drained _ _ c (by rw [hu]; exact hdrained)
  · rw [State.line_finish _ hq, State.countInputs_line_ofEventInputs _ hinputs (by rw [hu]; exact hevents), hu]

theorem State.serveSetCrane_of_marks {s : State} {b : List Byte} {c : Fin 8} {d k : Bool} (hc : byteAt b 0 = c.val)
    (hd : byteAt b 1 = d.toNat) (hk : byteAt b 2 = k.toNat) : s.serveSetCrane b =
      accept ((s.setLine c { s.line c with
        ctx := (s.line c).ctx.setMarks d k (BitVec.ofNat 8 (byteAt b 3)) (BitVec.ofNat 8 (byteAt b 4)) }).noteLine c)
        (fun t => (t.line c).ctx.putMarks) := by
  simp only [State.serveSetCrane, readCrane_of_crane c hc, readFlag_toNat hd, readFlag_toNat hk]
  rfl

theorem State.serveClearFaults_of_crane {s : State} {b : List Byte} {c : Fin 8} (hc : byteAt b 0 = c.val) :
    s.serveClearFaults b =
      accept ((s.setLine c { s.line c with ctx := { (s.line c).ctx with
        latched := (s.line c).ctx.latched &&& (s.line c).ctx.active } }).noteLine c)
          (fun t => (t.line c).ctx.putFaults) := by
  simp only [State.serveClearFaults, readCrane_of_crane c hc]
  rfl

theorem toNat_ofNat_byteAt (b : List Byte) (i : Nat) : (BitVec.ofNat 8 (byteAt b i)).toNat = byteAt b i := by
  rw [BitVec.toNat_ofNat, Nat.mod_eq_of_lt (byteAt_lt b i)]

/-- The layout of the marks that SET CRANE has written, the drained mark being as the event leaves it. -/
theorem Context.putMarks_setMarks (x : Context) (d k e : Bool) (b : List Byte) :
    ({ x.setMarks d k (BitVec.ofNat 8 (byteAt b 3)) (BitVec.ofNat 8 (byteAt b 4)) with drained := e } : Context).putMarks =
      putFlag d ++ putFlag e ++ put1 (byteAt b 3) ++ put1 (byteAt b 4) ++
        put1 (x.active &&& BitVec.ofNat 8 (byteAt b 3)).toNat ++ put1 x.latched.toNat := by
  simp only [Context.putMarks, Context.setMarks, toNat_ofNat_byteAt]

/-- Settles O54: the end of the event may drain a crane by a counter, and clears no drained mark. -/
theorem craneMarksAreWritten : Obligations.CraneMarksAreWritten := by
  intro n b c s hS hc
  have hset : requestRow 0x70 = some (everyPhase 0x70 5) := by decide
  have hclear : requestRow 0x71 = some (everyPhase 0x71 1) := by decide
  refine ⟨fun d k hlen hd hk hturn => ?_, fun hlen hturn => ?_⟩
  · obtain ⟨v, hexec, hsettled, hbare, -, hkept, hwhole⟩ := exec_lineWritten (i := .setCrane n b) hS rfl hturn
      (lengthAgrees_everyPhase hset hlen) (admitted_everyPhase s.phase hset)
      (State.serveSetCrane_of_marks (s := s.popRequest) hc hd hk)
    have hctx := Line.ctx_of_bare (State.bareLine_of_bare hbare c)
    rw [State.line_setLine] at hctx
    refine ⟨_, hexec, State.answer_settled _ _ _ _ hsettled, hctx, fun hkeep hdrained => hkept ?_,
      fun hundrain hevents => ?_, fun e he => ?_, (State.jobs_of_bare hbare :), (State.slots_of_bare hbare :),
      (State.aisles_of_bare hbare :), (State.car_of_bare hbare :), ?_⟩
    · have hmark : ((s.line c).ctx.drained && !k) = true := by rw [hdrained, hkeep]; rfl
      exact hmark
    · rw [State.line_answer, hwhole hevents, hundrain]
      exact Bool.and_false _
    · rw [State.line_answer, State.bareLine_of_bare hbare e, State.line_setLine_ne _ _ _ _ he, State.line_popRequest]
    · have hreplies : v.host.replies = s.host.replies := (State.replies_of_bare hbare :)
      have hmarks := Context.putMarks_setMarks (s.line c).ctx d k (v.line c).ctx.drained b
      rw [State.line_answer, State.answer_host, hreplies, ← hmarks]
      exact congrArg (fun x : Context => s.host.replies ++ [⟨0x70, n, .ok, x.putMarks⟩]) hctx
  · obtain ⟨v, hexec, hsettled, hbare, hgrows, -, -⟩ := exec_lineWritten (i := .clearFaults n b) hS rfl hturn
      (lengthAgrees_everyPhase hclear hlen) (admitted_everyPhase s.phase hclear)
      (State.serveClearFaults_of_crane (s := s.popRequest) hc)
    have hctx := Line.ctx_of_bare (State.bareLine_of_bare hbare c)
    rw [State.line_setLine] at hctx
    have hfaults : (v.line c).ctx.putFaults = put1 ((s.line c).ctx.latched &&& (s.line c).ctx.active).toNat ++
        put1 (s.line c).ctx.active.toNat := by
      rw [hctx]
      rfl
    rw [hfaults] at hexec
    exact ⟨_, hexec, State.answer_settled _ _ _ _ hsettled,
      congrArg (fun w : State => w.answer ⟨0x71, n, b⟩ .ok _) hbare, State.answer_grows _ _ _ _ _ _ _ hgrows⟩

end Sys2Proof.Machine
end

section
/-! The statement on a counter at its maximum that is counted once more (R148, R149, R150, R143). -/

namespace Sys2Proof.Machine

/-! ## One more count of a counter (R150) -/

theorem Counter.count_below {k : Counter} (h : k.value < 16777215) : k.count = { k with value := k.value + 1 } :=
  if_pos h

theorem Counter.count_wrap {k : Counter} (h : k.value = 16777215) (hmode : k.mode = .wrap) :
    k.count = { k with value := 0, overflow := true } := by
  simp [Counter.count, h, hmode, Config.counterMax]

theorem Counter.count_saturate {k : Counter} (h : k.value = 16777215) (hmode : k.mode = .saturate) :
    k.count = { k with overflow := true } := by
  simp [Counter.count, h, hmode, Config.counterMax]

theorem Counter.drains_iff {k : Counter} (h : k.value = 16777215) :
    k.drains = true ↔ k.mode = .wrap ∧ k.drainEnable = true := by
  simp [Counter.drains, h, Config.counterMax]

/-! ## When an occurrence would be counted (R148, R149) -/

/-- The gate of a combined A counter is open: its B counter selects a state input that holds (R149). -/
def State.GateHolds (s : State) (c : Fin 8) (b : Counter) : Prop :=
  isStateInput b.select = true ∧ s.inputHolds c b.select = true

theorem State.gateOpen_iff (s : State) (c : Fin 8) (combine : Bool) (b : Counter) :
    s.gateOpen c combine b = true ↔ (combine = true → s.GateHolds c b) := by
  cases combine <;> simp [State.gateOpen, State.GateHolds]

theorem State.mayCount_iff (s : State) (c : Fin 8) (id : CounterId) : s.mayCount c id = true ↔
    ((s.line c).counters.get id).select ≠ 0 ∧ isStateInput ((s.line c).counters.get id).select = false ∧
      (id = .a0 → (s.line c).counters.combine0 = true → s.GateHolds c (s.line c).counters.b0) ∧
      (id = .a1 → (s.line c).counters.combine1 = true → s.GateHolds c (s.line c).counters.b1) := by
  cases id <;> simp [State.mayCount, State.gateOpen_iff, and_assoc]

/-! ## The conditions after a drain (R143, R173) -/

/-- The conditions but SERVICE read nothing that counting changes. -/
theorem State.conditionBit_counted (u : State) (c : Fin 8) (k : Counters) (δ : Bool) (a : AlertSet) {x : Alert}
    (hx : x ≠ .service) : (u.counted c k δ a).conditionBit x = u.conditionBit x := by
  have hheld : (u.counted c k δ a).conditionHeld x = u.conditionHeld x := by
    cases x with
    | craneLost => exact State.anyLine_setLine (p := fun l => l.link == .lost) rfl
    | craneFault => exact State.anyLine_setLine (p := fun l => l.ctx.latched != 0 || l.ctx.conflict) rfl
    | service => exact absurd rfl hx
    | _ => rfl
  rw [State.conditionBit, hheld, State.conditionBit]

theorem alerts_absorb_service (a x q : AlertSet) (p : Bool) :
    (a ||| alertBit .service) ||| ((x ||| (if p then alertBit .service else 0)) &&& ~~~(x ||| q)) =
      a ||| alertBit .service := by
  apply BitVec.eq_of_getLsbD_eq
  intro i hi
  cases p <;> simp [hi] <;> grind

/-- A condition that comes to be held by a drain is SERVICE, whose alert the drain has raised. -/
theorem State.alerts_counted (u : State) (c : Fin 8) (k : Counters) (δ : Bool) (a b : AlertSet) :
    (a ||| alertBit .service) ||| ((u.counted c k δ b).heldConditions &&& ~~~u.heldConditions) =
      a ||| alertBit .service := by
  have hother {x : Alert} := State.conditionBit_counted u c k δ b (x := x)
  simp only [State.heldConditions, hother (x := .jobDone) nofun, hother (x := .stranded) nofun,
    hother (x := .craneLost) nofun, hother (x := .craneFault) nofun, hother (x := .car) nofun]
  exact alerts_absorb_service _ _ _ _

/-! ## COUNTER_OVERFLOW -/

/-- A counter that would be counted at its maximum: the count is the whole event. -/
theorem exec_counterOverflow_counts {c : Fin 8} {id : CounterId} {s : State} (hS : s.Settled)
    (hmax : ((s.line c).counters.get id).value = 16777215) (hmay : s.mayCount c id = true) :
    exec (.counterOverflow c id) s = .next (s.bump c id).takeConditions := by
  have hscratch : (s.bump c id).scratch = .empty := (State.bump_rest s c id).1.trans hS.scratch
  have hcond : Config.counterMax ≤ ((s.line c).counters.get id).value ∧ s.mayCount c id = true :=
    ⟨Nat.le_of_eq hmax.symm, hmay⟩
  have hexec : exec (.counterOverflow c id) s = .next (s.event (fun t => t.bump c id)) :=
    congrArg Host.Outcome.next (if_pos hcond)
  rw [hexec, State.event_plain s (s.bump c id) (fun t => t.bump c id)
    ⟨congrArg Scratch.own hscratch, congrArg Scratch.collected hscratch⟩ (congrArg Scratch.inputs hscratch)
    (State.scratch_cleared _ hscratch)]
  intro d n h
  rw [State.bump_eq_counted] at h
  exact State.inputHolds_of_counted _ _ (fun hd => by rw [hd, Bool.true_or]) h

theorem exec_counterOverflow_nothing {c : Fin 8} {id : CounterId} {s : State}
    (h : 16777215 ≤ ((s.line c).counters.get id).value → s.mayCount c id = true → False) :
    exec (.counterOverflow c id) s = .next s :=
  congrArg Host.Outcome.next (if_neg fun hc => h hc.1 hc.2)

theorem State.line_takeConditions (s : State) (c : Fin 8) : s.takeConditions.line c = s.line c := rfl

theorem State.takeConditions_alerts (s : State) :
    s.takeConditions.host.alerts = s.host.alerts ||| (s.heldConditions &&& ~~~s.host.conditions) := rfl

/-- What the count leaves of the crane's own line. -/
theorem State.line_bump (s : State) (c : Fin 8) (id : CounterId) : (s.bump c id).takeConditions.line c = { s.line c with
    counters := (s.line c).counters.set id ((s.line c).counters.get id).count
    ctx := { (s.line c).ctx with drained := (s.line c).ctx.drained || ((s.line c).counters.get id).drains } } := by
  rw [State.bump_eq_counted, State.line_takeConditions, State.line_counted]

theorem State.line_bump_ne (s : State) {c d : Fin 8} (h : d ≠ c) (id : CounterId) :
    (s.bump c id).takeConditions.line d = s.line d := by
  rw [State.bump_eq_counted, State.line_takeConditions, State.line_counted_ne s c _ _ _ h]

/-- A count that drains the crane raises SERVICE and no other alert. -/
theorem State.alerts_bump_drains {s : State} (hS : s.Settled) {c : Fin 8} {id : CounterId}
    (h : ((s.line c).counters.get id).drains = true) :
    (s.bump c id).takeConditions.host.alerts = s.host.alerts ||| alertBit .service := by
  rw [State.bump_eq_counted, if_pos h, State.takeConditions_alerts]
  have hconditions := State.alerts_counted s c ((s.line c).counters.set id ((s.line c).counters.get id).count)
    ((s.line c).ctx.drained || ((s.line c).counters.get id).drains) s.host.alerts (s.host.alerts ||| alertBit .service)
  rwa [← hS.conditions] at hconditions

/-- A count that does not drain the crane leaves the port. -/
theorem State.host_bump_of_noDrain {s : State} (hS : s.Settled) {c : Fin 8} {id : CounterId}
    (h : ((s.line c).counters.get id).drains = false) : (s.bump c id).takeConditions.host = s.host := by
  have hsame (k : Counters) : s.counted c k (s.line c).ctx.drained s.host.alerts =
      s.setLine c { s.line c with counters := k } := rfl
  have hheld (k : Counters) := State.heldConditions_setLine (s := s) (c := c) (l := { s.line c with counters := k }) rfl rfl
  have hfresh (k : Counters) : (s.setLine c { s.line c with counters := k }).Settled :=
    ⟨hS.scratch, hS.conditions.trans (hheld k).symm, hS.attention⟩
  rw [State.bump_eq_counted, h, Bool.or_false, if_neg Bool.false_ne_true, hsame,
    State.takeConditions_fresh _ (hfresh _).conditions (hfresh _).attention, State.setLine_host]

/-- Settles O56: the count alone is the event, since it makes no input occur and no state input hold. -/
theorem counterOverflows : Obligations.CounterOverflows := by
  refine ⟨fun k => Counter.count_below, fun c id k l s hS hl hk => ?_⟩
  subst hl hk
  refine ⟨fun hmax hselect hevent ha0 ha1 => ?_, fun hidle => ?_⟩
  · have hmay : s.mayCount c id = true := (State.mayCount_iff s c id).2 ⟨hselect, hevent, ha0, ha1⟩
    have hdrains := Counter.drains_iff hmax
    refine ⟨_, exec_counterOverflow_counts hS hmax hmay,
      State.takeConditions_settled _ ((State.bump_rest s c id).1.trans hS.scratch), State.bump_bare s c id,
      (State.bump_rest s c id).2, fun d hd => State.line_bump_ne s hd id, ?_⟩
    rw [State.line_bump]
    refine ⟨fun other ho => Counters.get_set_ne _ _ ho, ?_, ?_, fun hmode => ?_, fun hmode => ?_,
      fun hmode hdrain => ?_, fun hkeeps => ?_⟩
    · cases id <;> rfl
    · cases id <;> rfl
    · rw [Counters.get_set, Counter.count_wrap hmax hmode]
    · rw [Counters.get_set, Counter.count_saturate hmax hmode]
    · have hdrained := hdrains.2 ⟨hmode, hdrain⟩
      refine ⟨?_, State.alerts_bump_drains hS hdrained⟩
      rw [hdrained, Bool.or_true]
    · have hsteady : ((s.line c).counters.get id).drains = false := by
        rw [← Bool.not_eq_true, hdrains]
        rintro ⟨hwrap, hdrain⟩
        rcases hkeeps with hmode | hmode
        · cases hwrap.symm.trans hmode
        · cases hdrain.symm.trans hmode
      refine ⟨?_, State.host_bump_of_noDrain hS hsteady⟩
      rw [hsteady, Bool.or_false]
  · refine exec_counterOverflow_nothing fun hmax hmay => ?_
    obtain ⟨hselect, hevent, ha0, ha1⟩ := (State.mayCount_iff s c id).1 hmay
    rcases hidle with hbelow | hzero | hstate | ⟨rfl, hc, hgate⟩ | ⟨rfl, hc, hgate⟩
    · omega
    · exact hselect hzero
    · simp [hevent] at hstate
    · obtain ⟨hb, hholds⟩ := ha0 rfl hc
      simp [hb, hholds] at hgate
    · obtain ⟨hb, hholds⟩ := ha1 rfl hc
      simp [hb, hholds] at hgate

end Sys2Proof.Machine
end

section
/-! The steps of R138, each as one write: how a STATUS is stored (R139, R140, R141), how the aisle locks are reconciled (R99,
R100), and how its trip in hand meets the trips the controller knows (R131, R163, R164). -/

namespace Sys2Proof.Machine

/-! ## Reconciliation of the aisle locks (R100) -/

section locks

variable {s : State} {c : Fin 8} {z : Fin 16}

/-- The lock is the crane's own, free, or held by a crane that is LOST or ABSENT. -/
theorem State.getsLock_of_yielded
    (h : ∀ d, (s.aisle z).lock = some d → d = c ∨ (s.line d).link = .lost ∨ (s.line d).link = .absent) :
    s.getsLock c z = true := by
  unfold State.getsLock
  split
  · rfl
  · next d hd => rcases h d hd with h | h | h <;> simp [h]

/-- A crane that is UP or INTRODUCING keeps its lock. -/
theorem State.getsLock_of_defended {d : Fin 8} (hd : (s.aisle z).lock = some d) (hne : d ≠ c)
    (hlink : (s.line d).link = .up ∨ (s.line d).link = .introducing) : s.getsLock c z = false := by
  rcases hlink with h | h <;> simp [State.getsLock, hd, hne, h]

theorem State.keptDestinations_of_noTrip (htrip : (s.line c).trip = none) (hcar : s.car.current = none)
    (rebuilt : Option (Fin 16)) : s.keptDestinations c rebuilt = rebuilt.toList := by
  simp only [State.keptDestinations, htrip, hcar, List.nil_append]

theorem State.holdsLock_setLock_ne {a : Fin 16} (h : a ≠ z) (o : Option (Fin 8)) (d : Fin 8) :
    (s.setLock z o).holdsLock d a = s.holdsLock d a := by
  simp only [State.holdsLock, State.setLock, State.aisle_setAisle_ne _ _ _ _ h]

/-- The crane has the lock, and holds no other but of destinations that it keeps. -/
theorem State.settleLocks_keeps {rebuilt : Option (Fin 16)} (hgets : s.getsLock c z = true)
    (hother : ∀ a, a ≠ z → a ∉ s.keptDestinations c rebuilt → s.holdsLock c a = false) :
    s.settleLocks c z rebuilt = (s.setAisle z { s.aisle z with lock := some c }).setLine c { s.line c with
      ctx := { (s.line c).ctx with conflict := false } } := by
  have hrelease (a : Fin 16) : (if a = z ∨ a ∈ s.keptDestinations c rebuilt then s.setLock z (some c)
      else (s.setLock z (some c)).releaseLock c a) = s.setLock z (some c) := by
    by_cases ha : a = z ∨ a ∈ s.keptDestinations c rebuilt
    · exact if_pos ha
    · obtain ⟨hz, hkept⟩ := not_or.1 ha
      rw [if_neg ha, State.releaseLock_of_notHeld]
      rw [State.holdsLock_setLock_ne hz]
      exact hother a hz hkept
  simp only [State.settleLocks, hgets, if_true]
  rw [foldl_same _ _ hrelease]
  rfl

/-- The crane has the lock, and one other is released. -/
theorem State.settleLocks_releases {rebuilt : Option (Fin 16)} {y : Fin 16} (hgets : s.getsLock c z = true) (hy : y ≠ z)
    (hkept : y ∉ s.keptDestinations c rebuilt) (hheld : s.holdsLock c y = true)
    (hother : ∀ a, a ≠ z → a ≠ y → s.holdsLock c a = false) :
    s.settleLocks c z rebuilt = ((s.setAisle z { s.aisle z with lock := some c }).setAisle y
      { s.aisle y with lock := none }).tellDispatcher.setLine c { s.line c with
        ctx := { (s.line c).ctx with conflict := false } } := by
  have hrelease : (s.setLock z (some c)).releaseLock c y =
      ((s.setLock z (some c)).setAisle y { s.aisle y with lock := none }).tellDispatcher := by
    rw [State.releaseLock_of_held (by rw [State.holdsLock_setLock_ne hy]; exact hheld)]
    simp only [State.setLock, State.aisle_setAisle_ne _ _ _ _ hy]
  have hstays {t : State} (ht : ∀ a, a ≠ z → a ≠ y → t.holdsLock c a = false) (a : Fin 16) (ha : a ≠ y) :
      (if a = z ∨ a ∈ s.keptDestinations c rebuilt then t else t.releaseLock c a) = t := by
    by_cases hz : a = z
    · exact if_pos (.inl hz)
    · rw [State.releaseLock_of_notHeld (ht a hz ha), ite_self]
  have hnone (a : Fin 16) (hz : a ≠ z) (ha : a ≠ y) : (s.setLock z (some c)).holdsLock c a = false := by
    rw [State.holdsLock_setLock_ne hz]
    exact hother a hz ha
  have hy' : ¬(y = z ∨ y ∈ s.keptDestinations c rebuilt) := not_or.2 ⟨hy, hkept⟩
  have hfold : allAisles.foldl (fun t a => if a = z ∨ a ∈ s.keptDestinations c rebuilt then t else t.releaseLock c a)
      (s.setLock z (some c)) = (s.setLock z (some c)).releaseLock c y := by
    rw [foldl_only (x := y) ((by decide : ∀ a, a ∈ allAisles) y) (by decide) (hstays hnone), if_neg hy']
    rw [if_neg hy']
    exact hstays fun a hz ha => by rw [State.holdsLock_releaseLock, hnone a hz ha, Bool.false_and]
  simp only [State.settleLocks, hgets, if_true]
  rw [hfold, hrelease]
  rfl

/-- The lock is another's: no lock changes, and the aisle-conflict flag comes to be set. -/
theorem State.settleLocks_conflicts {rebuilt : Option (Fin 16)} (hgets : s.getsLock c z = false)
    (hclear : (s.line c).ctx.conflict = false) : s.settleLocks c z rebuilt =
      (s.raise .craneFault).setLine c { s.line c with ctx := { (s.line c).ctx with conflict := true } } := by
  simp only [State.settleLocks, hgets, hclear, Bool.false_eq_true, if_false]
  rfl

theorem State.settleLocks_conflictStands {rebuilt : Option (Fin 16)} (hgets : s.getsLock c z = false)
    (hset : (s.line c).ctx.conflict = true) : s.settleLocks c z rebuilt = s := by
  simp only [State.settleLocks, hgets, hset, Bool.false_eq_true, if_false, if_true]

end locks

/-! ## The report as it is stored (steps 1 to 4 of R138) -/

section steps

variable {s : State} {c : Fin 8} {r : StatusReport} {z : Fin 16}

theorem State.noteInputs_eq_noting (s : State) (c : Fin 8) (k n : Nat) :
    s.noteInputs c k n = s.noting (List.replicate n (c, k)) := by
  induction n generalizing s with
  | zero => exact (State.noting_nil s).symm
  | succ n ih =>
    rw [State.noteInputs, ih, List.replicate_succ]
    simp [State.noting, State.noteInput]

/-- A report with a newly active fault raises CRANE_FAULT, and each such fault is a counter input (R141). -/
theorem State.takeReport_faulted (h : (s.line c).ctx.newFaults r.faults ≠ 0) : s.takeReport c r =
    ((s.setLine c { s.line c with ctx := (s.line c).ctx.takeReport r }).raise .craneFault).noting
      (List.replicate (countKinds ((s.line c).ctx.newFaults r.faults)) (c, 10)) := by
  have hnew : ((s.line c).ctx.newFaults r.faults != 0) = true := by simpa using h
  simp only [State.takeReport, hnew, if_true, State.noteInputs_eq_noting]
  rfl

/-- Where reconciliation is called for, the aisle is stored, the locks are settled and the mark is cleared (R99). -/
theorem State.takeAisle_reconciles (hr : r.aisle = .inAisle z) (hz : (s.aisle z).geometry.isSome = true)
    (hdue : (s.line c).reconcileDue = true ∨ (s.line c).ctx.aisle ≠ .inAisle z ∨ s.holdsLock c z = false) :
    s.takeAisle c r = ((s.setLine c { s.line c with ctx := { (s.line c).ctx with aisle := .inAisle z } }).settleLocks c z
      (s.aisleToRebuild c r.trip)).updateLine c (fun l => { l with reconcileDue := false }) := by
  have hcond : ((s.aisle z).geometry.isSome && ((s.line c).reconcileDue || (s.line c).ctx.aisle != .inAisle z ||
      !s.holdsLock c z)) = true := by
    rcases hdue with h | h | h <;> simp [hz, h]
  simp only [State.takeAisle, hr]
  refine if_pos ?_
  simpa [State.updateCtx, State.updateLine] using hcond

theorem State.aisleToRebuild_of_unchecked (h : (s.line c).strandedCheck = false) (n : Nat) :
    s.aisleToRebuild c n = none := by simp [State.aisleToRebuild, h]

theorem State.aisleToRebuild_of_stranded {n i : Nat} {j : Job} (hcheck : (s.line c).strandedCheck = true) (hn : n ≠ 0)
    (htrip : (s.line c).trip = none) (hstranded : s.strandedTrip c n = [i]) (hj : s.job i = some j) :
    s.aisleToRebuild c n = some j.aisle := by
  simp [State.aisleToRebuild, hcheck, hn, htrip, hstranded, hj]

/-! ## Exchanges and trips (steps 5 and 6 of R138) -/

/-- Without an open exchange the trip in hand decides no more than the not-ready mark. -/
theorem State.decideExchange_of_noExchange (h : (s.line c).exchange = none) : s.decideExchange c r =
    s.setLine c { s.line c with notReady := if r.trip = 0 then false else (s.line c).notReady } := by
  have hkind : (s.line c).exchangeKind = none := by simp [Line.exchangeKind, h]
  simp only [State.decideExchange, hkind]
  split
  · rfl
  · exact (State.setLine_line s c).symm

/-- A trip in hand of 0, or of the crane's own trip, calls for nothing. -/
theorem State.reconcileTrips_of_known (h : r.trip = 0 ∨ (s.line c).holdsTrip r.trip = true) :
    s.reconcileTrips c r = s.setLine c { s.line c with strandedCheck := false } := by
  simp only [State.reconcileTrips, if_pos h]
  rfl

/-- A number that is no trip of the crane and no STRANDED job's is listed for a CANCEL ALL (R131). -/
theorem State.reconcileTrips_of_unknown (hn : r.trip ≠ 0) (htrip : (s.line c).trip = none)
    (hstranded : s.strandedTrip c r.trip = []) (hx : (s.line c).exchange = none) (hstale : (s.line c).stale = []) :
    s.reconcileTrips c r = s.setLine c { s.line c with strandedCheck := false, stale := [r.trip] } := by
  have hunknown : ¬(r.trip = 0 ∨ (s.line c).holdsTrip r.trip = true) := by simp [hn, Line.holdsTrip, htrip]
  simp [State.reconcileTrips, if_neg hunknown, hstranded, State.listStale, State.updateLine, Line.cancelling,
    Line.cancelsAll, hx, hstale]

/-- The trip of one STRANDED job is rebuilt while the car serves no request (R164). -/
theorem State.rebuildTrip_one {n i k : Nat} {j : Job} (hstranded : s.strandedTrip c n = [i]) (hj : s.job i = some j)
    (hassignment : j.assignment = some ⟨c, n, k⟩) (hw : j.withdrawRequested = false) (hcar : s.car.current = none) :
    s.rebuildTrip c n (.inAisle z) = (s.setJob i { j with state := .active }).setLine c { s.line c with
      trip := some ⟨n, [⟨k, i, false, false, false⟩],
        if z = j.aisle then none else some ⟨some z, j.aisle, .toHead⟩, true, true⟩
      ctx := { (s.line c).ctx with work := .busy } } := by
  have hindex : j.legIndex = k := by simp only [Job.legIndex, hassignment]
  have hlegs : s.rebuiltLegs [i] = [⟨k, i, false, false, false⟩] := by
    simp only [State.rebuiltLegs, List.filterMap_cons, hj, Option.map_some, hindex, List.filterMap_nil]
    exact State.wantCancels_one hj hw
  simp only [State.rebuildTrip, hstranded, hj, hcar, hlegs, State.activate, List.foldl_cons, List.foldl_nil,
    State.updateJob_of_job hj, State.updateLine, Option.some.injEq]
  rfl

/-- At the first STATUS after an introduction, a trip in hand of STRANDED jobs is rebuilt (R163). -/
theorem State.reconcileTrips_rebuilds (hn : r.trip ≠ 0) (htrip : (s.line c).trip = none)
    (hstranded : s.strandedTrip c r.trip ≠ []) (hcheck : (s.line c).strandedCheck = true) :
    s.reconcileTrips c r = (s.setLine c { s.line c with strandedCheck := false }).rebuildTrip c r.trip r.aisle := by
  have hunknown : ¬(r.trip = 0 ∨ (s.line c).holdsTrip r.trip = true) := by simp [hn, Line.holdsTrip, htrip]
  have hsome : ¬ (s.strandedTrip c r.trip).isEmpty = true := by simpa using hstranded
  simp only [State.reconcileTrips, if_neg hunknown, if_neg hsome, if_pos (And.intro hcheck htrip)]
  rfl

/-! ## The joining of the car queue (R104, R105) -/

theorem State.joinByStatus_of_notAtHead (h : r.atHead = false) : s.joinByStatus c r = s := by
  simp only [State.joinByStatus, h]

theorem State.joinByStatus_of_atHead (h : r.atHead = true) (hr : r.aisle = .inAisle z) :
    s.joinByStatus c r = s.joinQueue c z := by
  simp only [State.joinByStatus, h, hr]

/-- An entry joins the tail of the car queue. -/
def State.withEntry (s : State) (e : CarRequest) : State :=
  { s with car := { s.car with queue := s.car.queue ++ [e] } }

section joining

variable {l : Line} {t : Trip} {y : Transfer} (ht : l.trip = some t) (hy : t.transfer = some y)
  (haccepted : t.accepted = true) (hstage : y.stage = .toHead) (hcarried : s.beingCarried c = false)

include ht hy haccepted hstage hcarried

/-- The crane stands in the to aisle already: no entry is made (assumption 35). -/
theorem State.joinQueue_arrived (hz : z = y.toAisle) : (s.setLine c l).joinQueue c z = s.setLine c { l with
    trip := some { t with transfer := some { y with fromAisle := some z, stage := .done } } } := by
  have ht' : ((s.setLine c l).line c).trip = some t := by rw [State.line_setLine]; exact ht
  have hjoins : t.accepted = true ∧ y.stage = .toHead ∧ ¬ (s.setLine c l).beingCarried c = true :=
    ⟨haccepted, hstage, ne_true_of_eq_false hcarried⟩
  simp only [State.joinQueue, ht', hy, if_pos hjoins, if_pos hz]
  rw [State.updateTransfer_of_trip ht' hy, State.line_setLine, State.setLine_setLine]

/-- Elsewhere an entry joins the queue, which is then served if it may be. -/
theorem State.joinQueue_queues (hz : z ≠ y.toAisle) : (s.setLine c l).joinQueue c z =
    ((s.withEntry ⟨c, z, y.toAisle⟩).setLine c { l with
      trip := some { t with transfer := some { y with fromAisle := some z, stage := .queued } } }).serveQueue := by
  have ht' : ((s.setLine c l).line c).trip = some t := by rw [State.line_setLine]; exact ht
  have hjoins : t.accepted = true ∧ y.stage = .toHead ∧ ¬ (s.setLine c l).beingCarried c = true :=
    ⟨haccepted, hstage, ne_true_of_eq_false hcarried⟩
  simp only [State.joinQueue, ht', hy, if_pos hjoins, if_neg hz]
  rw [State.updateTransfer_of_trip ht' hy, State.line_setLine, State.setLine_setLine]
  rfl

/-- The entry waits while the car may not be served. -/
theorem State.joinQueue_waits (hz : z ≠ y.toAisle) (hmay : s.car.mayServe = false) :
    (s.setLine c l).joinQueue c z = (s.withEntry ⟨c, z, y.toAisle⟩).setLine c { l with
      trip := some { t with transfer := some { y with fromAisle := some z, stage := .queued } } } :=
  (State.joinQueue_queues ht hy haccepted hstage hcarried hz).trans (State.serveQueue_of_mayNot hmay)

/-- With nothing before it and the car free to serve, the entry is served at once. -/
theorem State.joinQueue_served {m : Nat} (hz : z ≠ y.toAisle) (hmay : s.car.mayServe = true) (hqueue : s.car.queue = [])
    (hx : s.car.exchange = none) (hm : m = nextOrderNumber s.car.orderNumber s.car.orderInHand) :
    (s.setLine c l).joinQueue c z = ({ s with car := { s.car with
      current := some ⟨m, c, z, y.toAisle, t.number⟩
      orderNumber := m
      work := .ordering
      orderWaiting := false
      exchange := some ⟨true, .order m c z y.toAisle, 0, s.settings.tack⟩
      sent := s.car.sent ++ [CarTelegram.order m c z y.toAisle] } } : State).setLine c { l with
        trip := some { t with transfer := some { y with fromAisle := some z, stage := .serving } } } := by
  rw [State.joinQueue_queues ht hy haccepted hstage hcarried hz]
  generalize hl : ({ l with
    trip := some { t with transfer := some { y with fromAisle := some z, stage := .queued } } } : Line) = k
  have hentry : ((s.withEntry ⟨c, z, y.toAisle⟩).setLine c k).car.queue = ⟨c, z, y.toAisle⟩ :: s.car.queue := by
    rw [State.setLine_car, State.withEntry, hqueue]
    rfl
  have hlink : s.car.link = .up := by
    simp only [Car.mayServe, Bool.and_eq_true, beq_iff_eq] at hmay
    exact hmay.1.1.1.1.2
  have htrip : (((s.withEntry ⟨c, z, y.toAisle⟩).setLine c k).line c).trip =
      some { t with transfer := some { y with fromAisle := some z, stage := .queued } } := by
    rw [State.line_setLine, ← hl]
  rw [State.serveQueue_serves hentry hmay hlink hx htrip rfl hm, State.line_setLine, ← hl]
  exact State.setLine_setLine ({ s with car := _ } : State) c _ _

end joining

end steps

end Sys2Proof.Machine
end

section
/-! The statement on a STATUS: its steps together, for a crane without trip and for one that joins the car queue (R138). -/

namespace Sys2Proof.Machine

section inPlace

variable {s : State} {c : Fin 8} {r : StatusReport} {z : Fin 16}

/-! ## Steps 1 to 4: the report and the aisle -/

/-- The line of crane `c` with a report from aisle `z` stored (R138). -/
def Line.reported (l : Line) (r : StatusReport) (z : Fin 16) : Line := { l with ctx := l.ctx.reported r z }

/-- A crane that stands where it stood, holding the lock there: with its report stored, so is the aisle. -/
theorem State.takeAisle_inPlace {u : State} (hu : u.line c = { s.line c with ctx := (s.line c).ctx.takeReport r })
    (hr : r.aisle = .inAisle z) (haisle : (s.line c).ctx.aisle = .inAisle z) (hlock : u.holdsLock c z = true)
    (hdue : (s.line c).reconcileDue = false) : u.takeAisle c r = u.setLine c ((s.line c).reported r z) := by
  rw [State.takeAisle_settled hr (by rw [hu]; exact haisle) hlock (by rw [hu]; exact hdue), hu,
    Context.takeReport_inAisle]
  rfl

theorem State.stored_inPlace (hr : r.aisle = .inAisle z) (haisle : (s.line c).ctx.aisle = .inAisle z)
    (hlock : s.holdsLock c z = true) (hdue : (s.line c).reconcileDue = false)
    (hnew : (s.line c).ctx.newlyActive r = 0) :
    (s.takeReport c r).takeAisle c r = s.setLine c ((s.line c).reported r z) := by
  rw [State.takeReport_plain hnew, State.takeAisle_inPlace (s := s) (State.line_setLine ..) hr haisle _ hdue,
    State.setLine_setLine]
  exact hlock

/-- The same with a newly active fault (R141). -/
theorem State.stored_faulted (hr : r.aisle = .inAisle z) (haisle : (s.line c).ctx.aisle = .inAisle z)
    (hlock : s.holdsLock c z = true) (hdue : (s.line c).reconcileDue = false)
    (hnew : (s.line c).ctx.newlyActive r ≠ 0) : (s.takeReport c r).takeAisle c r =
      ((s.setLine c ((s.line c).reported r z)).raise .craneFault).noting
        (List.replicate (countKinds ((s.line c).ctx.newFaults r.faults)) (c, 10)) := by
  rw [State.takeReport_faulted hnew, State.takeAisle_inPlace (s := s) _ hr haisle _ hdue]
  · exact congrArg (fun u : State => (u.raise .craneFault).noting _) (State.setLine_setLine ..)
  · rw [State.line_noting, State.line_raise, State.line_setLine]
  · exact hlock

/-- Where reconciliation is called for, the locks are settled on the stored report. -/
theorem State.stored_reconciled (hr : r.aisle = .inAisle z) (hz : (s.aisle z).geometry.isSome = true)
    (hdue : (s.line c).reconcileDue = true ∨ (s.line c).ctx.aisle ≠ .inAisle z ∨ s.holdsLock c z = false)
    (hnew : (s.line c).ctx.newlyActive r = 0) {rebuilt : Option (Fin 16)}
    (hrebuilt : (s.takeReport c r).aisleToRebuild c r.trip = rebuilt) :
    (s.takeReport c r).takeAisle c r = ((s.setLine c ((s.line c).reported r z)).settleLocks c z rebuilt).updateLine c
      (fun l => { l with reconcileDue := false }) := by
  have hstored := State.takeReport_plain (c := c) hnew
  rw [State.takeAisle_reconciles hr, hrebuilt, hstored, State.line_setLine, State.setLine_setLine,
    Context.takeReport_inAisle]
  · rfl
  · rw [hstored]; exact hz
  · rw [hstored, State.line_setLine]; exact hdue

/-! ## Steps 5 and 6: exchanges and trips -/

/-- The line of crane `c` when a STATUS from aisle `z` has been taken that finds no exchange open (R128, R138, R163). -/
def Line.taken (l : Line) (r : StatusReport) (z : Fin 16) : Line :=
  { l with
    notReady := if r.trip = 0 then false else l.notReady
    strandedCheck := false
    ctx := l.ctx.reported r z }

/-- The same with the locks reconciled, and the aisle-conflict flag as that leaves it (R99, R100). -/
def Line.reconciled (l : Line) (r : StatusReport) (z : Fin 16) (conflict : Bool) : Line :=
  { l.taken r z with reconcileDue := false, ctx := { l.ctx.reported r z with conflict := conflict } }

/-- No exchange is open, and the trip in hand is 0 or the crane's own. -/
theorem State.takeStatus_of_known {u : State} (hu : (s.takeReport c r).takeAisle c r = u)
    (hx : (u.line c).exchange = none) (hknown : r.trip = 0 ∨ (u.line c).holdsTrip r.trip = true) :
    s.takeStatus c r = (u.setLine c { u.line c with
      notReady := if r.trip = 0 then false else (u.line c).notReady
      strandedCheck := false }).joinByStatus c r := by
  rw [State.takeStatus, hu, State.decideExchange_of_noExchange hx, State.reconcileTrips_of_known,
    State.line_setLine, State.setLine_setLine]
  rw [State.line_setLine]
  exact hknown

/-- The same of a crane without a trip. -/
theorem State.takeStatus_of_emptyHand {u : State} (hu : (s.takeReport c r).takeAisle c r = u)
    (hx : (u.line c).exchange = none) (htrip : (u.line c).trip = none) (hhand : r.trip = 0) :
    s.takeStatus c r = u.setLine c { u.line c with
      notReady := if r.trip = 0 then false else (u.line c).notReady
      strandedCheck := false } := by
  rw [State.takeStatus_of_known hu hx (.inl hhand), State.joinByStatus_of_noTrip]
  rw [State.line_setLine]
  exact htrip

/-- A crane without a trip whose trip in hand is that of one STRANDED job, at the first STATUS after its introduction. -/
theorem State.takeStatus_of_stranded {m : Line} {i k : Nat} {j : Job}
    (hu : (s.takeReport c r).takeAisle c r = s.setLine c m) (hx : m.exchange = none) (htrip : m.trip = none)
    (hcheck : m.strandedCheck = true) (hhand : r.trip ≠ 0) (hr : r.aisle = .inAisle z) (hhead : r.atHead = false)
    (hstranded : s.strandedTrip c r.trip = [i]) (hj : s.job i = some j) (hassignment : j.assignment = some ⟨c, r.trip, k⟩)
    (hw : j.withdrawRequested = false) (hcar : s.car.current = none) :
    s.takeStatus c r = (s.setJob i { j with state := .active }).setLine c { m with
      notReady := if r.trip = 0 then false else m.notReady
      strandedCheck := false
      trip := some ⟨r.trip, [⟨k, i, false, false, false⟩],
        if z = j.aisle then none else some ⟨some z, j.aisle, .toHead⟩, true, true⟩
      ctx := { m.ctx with work := .busy } } := by
  have hline (l : Line) : (s.setLine c l).line c = l := State.line_setLine s c l
  have hne : s.strandedTrip c r.trip ≠ [] := by simp [hstranded]
  have hdecided (l : Line) (hl : l.exchange = none) := State.decideExchange_of_noExchange (s := s.setLine c l) (r := r)
    (c := c) (by rw [hline]; exact hl)
  have hreconciled (l : Line) (hl : l.trip = none) (hlcheck : l.strandedCheck = true) :=
    State.reconcileTrips_rebuilds (s := s.setLine c l) hhand (by rw [hline]; exact hl) hne (by rw [hline]; exact hlcheck)
  have hrebuilt (l : Line) := State.rebuildTrip_one (s := s.setLine c l) (z := z) hstranded hj hassignment hw hcar
  simp only [hline, State.setLine_setLine] at hdecided hreconciled
  rw [State.takeStatus, hu, hdecided m hx, hreconciled, hr, hrebuilt, hline, State.joinByStatus_of_notAtHead hhead,
    State.setJob_setLine_comm, State.setLine_setLine, State.setJob_setLine_comm]
  · exact htrip
  · exact hcheck

/-- A crane without trip and stale cancel whose trip in hand is none that the controller knows. -/
theorem State.takeStatus_of_unknown {m : Line} (hu : (s.takeReport c r).takeAisle c r = s.setLine c m)
    (hx : m.exchange = none) (htrip : m.trip = none) (hstale : m.stale = []) (hhand : r.trip ≠ 0)
    (hstranded : s.strandedTrip c r.trip = []) : s.takeStatus c r = s.setLine c { m with
      notReady := if r.trip = 0 then false else m.notReady, strandedCheck := false, stale := [r.trip] } := by
  have hline (l : Line) : (s.setLine c l).line c = l := State.line_setLine s c l
  have hdecided (l : Line) (hl : l.exchange = none) := State.decideExchange_of_noExchange (s := s.setLine c l) (r := r)
    (c := c) (by rw [hline]; exact hl)
  have hreconciled (l : Line) (hl : l.trip = none) (hlx : l.exchange = none) (hls : l.stale = []) :=
    State.reconcileTrips_of_unknown (s := s.setLine c l) hhand (by rw [hline]; exact hl) hstranded
      (by rw [hline]; exact hlx) (by rw [hline]; exact hls)
  simp only [hline, State.setLine_setLine] at hdecided hreconciled
  rw [State.takeStatus, hu, hdecided m hx, hreconciled, State.joinByStatus_of_noTrip]
  · rw [hline]; exact htrip
  · exact htrip
  · exact hx
  · exact hstale

end inPlace

/-! ## A crane without trip, exchange and stale cancel -/

/-- The line of crane `c` is `l`: UP, without trip, exchange and stale cancel; and report `r` places the crane in aisle `z`,
which is configured. -/
structure State.ReportsFree (s : State) (c : Fin 8) (r : StatusReport) (z : Fin 16) (l : Line) : Prop where
  line : s.line c = l
  place : r.aisle = .inAisle z
  configured : (s.aisle z).geometry.isSome = true
  up : l.link = .up
  noTrip : l.trip = none
  noExchange : l.exchange = none
  noStale : l.stale = []

/-- The line of crane `c` as a telegram is taken on it that has started its silence timer afresh (R120). -/
def State.heard (s : State) (c : Fin 8) : Line := { s.line c with silence := s.settings.pollInterval }

namespace State.ReportsFree

variable {s : State} {c : Fin 8} {r : StatusReport} {z : Fin 16} {l : Line}

theorem restartSilence (h : s.ReportsFree c r z l) : (s.restartSilence c).ReportsFree c r z (s.heard c) := by
  obtain rfl := h.line
  exact ⟨State.line_restartSilence s c, h.place, h.configured, h.up, h.noTrip, h.noExchange, h.noStale⟩

/-- R139, R140: the report is stored where the crane stands. -/
theorem takeStatus_inPlace (h : s.ReportsFree c r z l) (hhand : r.trip = 0) (haisle : l.ctx.aisle = .inAisle z)
    (hlock : s.holdsLock c z = true) (hdue : l.reconcileDue = false)
    (hnew : l.ctx.newlyActive r = 0) : s.takeStatus c r = s.setLine c (l.taken r z) := by
  obtain rfl := h.line
  rw [State.takeStatus_of_emptyHand (State.stored_inPlace h.place haisle hlock hdue hnew) _ _ hhand,
    State.setLine_setLine, State.line_setLine]
  · rfl
  · rw [State.line_setLine]; exact h.noExchange
  · rw [State.line_setLine]; exact h.noTrip

/-- R141: newly active faults raise CRANE_FAULT. -/
theorem takeStatus_faulted (h : s.ReportsFree c r z l) (hhand : r.trip = 0) (haisle : l.ctx.aisle = .inAisle z)
    (hlock : s.holdsLock c z = true) (hdue : l.reconcileDue = false)
    (hnew : l.ctx.newlyActive r ≠ 0) : ∃ x, s.takeStatus c r =
      ((s.setLine c (l.taken r z)).raise .craneFault).noting x := by
  obtain rfl := h.line
  refine ⟨List.replicate (countKinds ((s.line c).ctx.newFaults r.faults)) (c, 10), ?_⟩
  have hline {x : List (Fin 8 × Nat)} {l : Line} : (((s.setLine c l).raise .craneFault).noting x).line c = l := by
    rw [State.line_noting, State.line_raise, State.line_setLine]
  rw [State.takeStatus_of_emptyHand (State.stored_faulted h.place haisle hlock hdue hnew) _ _ hhand, hline]
  · exact congrArg (fun u : State => (u.raise .craneFault).noting _) (State.setLine_setLine ..)
  · rw [hline]; exact h.noExchange
  · rw [hline]; exact h.noTrip

/-- The report of crane `c` changes no crane's link. -/
theorem link_stored (s : State) (c : Fin 8) (r : StatusReport) (z : Fin 16) (d : Fin 8) :
    ((s.setLine c ((s.line c).reported r z)).line d).link = (s.line d).link := by
  by_cases hd : d = c
  · rw [hd, State.line_setLine]
    rfl
  · rw [State.line_setLine_ne _ _ _ _ hd]

theorem getsLock_stored
    (hyielded : ∀ d, (s.aisle z).lock = some d → d = c ∨ (s.line d).link = .lost ∨ (s.line d).link = .absent) :
    (s.setLine c ((s.line c).reported r z)).getsLock c z = true :=
  State.getsLock_of_yielded fun d hd => by rw [link_stored]; exact hyielded d hd

theorem getsLock_defended {d : Fin 8} (hd : (s.aisle z).lock = some d) (hne : d ≠ c)
    (hlink : (s.line d).link = .up ∨ (s.line d).link = .introducing) :
    (s.setLine c ((s.line c).reported r z)).getsLock c z = false :=
  State.getsLock_of_defended hd hne (by rw [link_stored]; exact hlink)

section reconciled

variable (h : s.ReportsFree c r z l) (hhand : r.trip = 0) (hcheck : l.strandedCheck = false)
  (hdue : l.reconcileDue = true ∨ l.ctx.aisle ≠ .inAisle z ∨ s.holdsLock c z = false)
  (hnew : l.ctx.newlyActive r = 0)

include h hhand hcheck hdue hnew

/-- R99, R100: where reconciliation is called for, what it makes of the locks, with the line that it leaves. -/
theorem takeStatus_reconciled {u : State} {conflict : Bool}
    (hlocks : (s.setLine c (l.reported r z)).settleLocks c z none = u.setLine c { l.reported r z with
      ctx := { l.ctx.reported r z with conflict := conflict } }) :
    s.takeStatus c r = u.setLine c (l.reconciled r z conflict) := by
  obtain rfl := h.line
  have hrebuilt : (s.takeReport c r).aisleToRebuild c r.trip = none := by
    rw [State.takeReport_plain hnew]
    exact State.aisleToRebuild_of_unchecked (by rw [State.line_setLine]; exact hcheck) r.trip
  have hstored := State.stored_reconciled h.place h.configured hdue hnew hrebuilt
  rw [hlocks, State.updateLine, State.line_setLine, State.setLine_setLine] at hstored
  rw [State.takeStatus_of_emptyHand hstored _ _ hhand, State.setLine_setLine, State.line_setLine]
  · rfl
  · rw [State.line_setLine]; exact h.noExchange
  · rw [State.line_setLine]; exact h.noTrip

/-- The crane has or gets the lock, and holds no other. -/
theorem takeStatus_getsLock
    (hyielded : ∀ d, (s.aisle z).lock = some d → d = c ∨ (s.line d).link = .lost ∨ (s.line d).link = .absent)
    (hother : ∀ a, a ≠ z → s.holdsLock c a = false) : s.takeStatus c r =
      (s.setAisle z { s.aisle z with lock := some c }).setLine c (l.reconciled r z false) := by
  obtain rfl := h.line
  refine takeStatus_reconciled h hhand hcheck hdue hnew ?_
  rw [State.settleLocks_keeps (getsLock_stored hyielded) fun a ha _ => hother a ha, State.line_setLine]
  exact State.setLine_setLine (s.setAisle z _) c _ _

/-- The crane has or gets the lock, and its other one is released. -/
theorem takeStatus_movesLock {y : Fin 16} (hcar : s.car.current = none)
    (hyielded : ∀ d, (s.aisle z).lock = some d → d = c ∨ (s.line d).link = .lost ∨ (s.line d).link = .absent)
    (hy : y ≠ z) (hheld : s.holdsLock c y = true) (hother : ∀ a, a ≠ z → a ≠ y → s.holdsLock c a = false) :
    s.takeStatus c r = ((s.setAisle z { s.aisle z with lock := some c }).setAisle y
      { s.aisle y with lock := none }).tellDispatcher.setLine c (l.reconciled r z false) := by
  obtain rfl := h.line
  have hkept := State.keptDestinations_of_noTrip (s := s.setLine c ((s.line c).reported r z)) (c := c)
    (by rw [State.line_setLine]; exact h.noTrip) hcar none
  refine takeStatus_reconciled h hhand hcheck hdue hnew ?_
  rw [State.settleLocks_releases (getsLock_stored hyielded) hy (by simp [hkept]) hheld hother, State.line_setLine]
  exact State.setLine_setLine ((s.setAisle z _).setAisle y _).tellDispatcher c _ _

/-- The lock is defended: no lock changes, and the aisle-conflict flag comes to be set. -/
theorem takeStatus_conflicts {d : Fin 8} (hd : (s.aisle z).lock = some d) (hne : d ≠ c)
    (hlink : (s.line d).link = .up ∨ (s.line d).link = .introducing) (hclear : l.ctx.conflict = false) :
    s.takeStatus c r = (s.raise .craneFault).setLine c (l.reconciled r z true) := by
  obtain rfl := h.line
  refine takeStatus_reconciled h hhand hcheck hdue hnew ?_
  rw [State.settleLocks_conflicts (getsLock_defended hd hne hlink) (by rw [State.line_setLine]; exact hclear),
    State.line_setLine]
  exact State.setLine_setLine (s.raise .craneFault) c _ _

/-- The flag stands set already. -/
theorem takeStatus_conflictStands {d : Fin 8} (hd : (s.aisle z).lock = some d) (hne : d ≠ c)
    (hlink : (s.line d).link = .up ∨ (s.line d).link = .introducing) (hset : l.ctx.conflict = true) :
    s.takeStatus c r = s.setLine c { l.taken r z with reconcileDue := false } := by
  obtain rfl := h.line
  refine takeStatus_reconciled (conflict := (s.line c).ctx.conflict) h hhand hcheck hdue hnew ?_
  rw [State.settleLocks_conflictStands (getsLock_defended hd hne hlink) (by rw [State.line_setLine]; exact hset)]
  rfl

end reconciled

/-- The trip of one STRANDED job is rebuilt (R163, R164). -/
theorem takeStatus_rebuilds {i k : Nat} {j : Job} (h : s.ReportsFree c r z l) (hhand : r.trip ≠ 0)
    (hcheck : l.strandedCheck = true) (hdue : l.reconcileDue = true) (hhead : r.atHead = false)
    (hnew : l.ctx.newlyActive r = 0) (hcar : s.car.current = none) (hstranded : s.strandedTrip c r.trip = [i])
    (hj : s.job i = some j) (hassignment : j.assignment = some ⟨c, r.trip, k⟩) (hw : j.withdrawRequested = false)
    (hlock : s.holdsLock c z = true) (hother : ∀ a, a ≠ z → a ≠ j.aisle → s.holdsLock c a = false) :
    s.takeStatus c r = (s.setJob i { j with state := .active }).setLine c { l.reconciled r z false with
      trip := some ⟨r.trip, [⟨k, i, false, false, false⟩],
        if z = j.aisle then none else some ⟨some z, j.aisle, .toHead⟩, true, true⟩
      ctx := { l.ctx.reported r z with conflict := false, work := .busy } } := by
  obtain rfl := h.line
  have hrebuilt : (s.takeReport c r).aisleToRebuild c r.trip = some j.aisle := by
    rw [State.takeReport_plain hnew]
    exact State.aisleToRebuild_of_stranded (by rw [State.line_setLine]; exact hcheck) hhand
      (by rw [State.line_setLine]; exact h.noTrip) hstranded hj
  have hgets : (s.setLine c ((s.line c).reported r z)).getsLock c z = true :=
    getsLock_stored fun d hd => .inl (Option.some.inj (hd.symm.trans (beq_iff_eq.1 hlock)))
  have hkept := State.keptDestinations_of_noTrip (s := s.setLine c ((s.line c).reported r z)) (c := c)
    (by rw [State.line_setLine]; exact h.noTrip) hcar (some j.aisle)
  have hsame : s.setAisle z { s.aisle z with lock := some c } = s := State.setLock_of_held hlock
  have hstored := State.stored_reconciled h.place h.configured (.inl hdue) hnew hrebuilt
  have hsettled := State.settleLocks_keeps hgets (rebuilt := some j.aisle)
    fun a ha hnot => hother a ha (by simpa [hkept] using hnot)
  have hmoved : (s.setLine c ((s.line c).reported r z)).setAisle z
      { (s.setLine c ((s.line c).reported r z)).aisle z with lock := some c } =
        s.setLine c ((s.line c).reported r z) := congrArg (fun u : State => u.setLine c _) hsame
  rw [hsettled, hmoved, State.updateLine, State.setLine_setLine, State.setLine_setLine] at hstored
  simp only [State.line_setLine] at hstored
  rw [State.takeStatus_of_stranded hstored h.noExchange h.noTrip hcheck hhand h.place hhead hstranded hj hassignment hw hcar]
  rfl

/-- The trip in hand is one that the controller does not know: its number is listed for a CANCEL ALL (R131). -/
theorem takeStatus_unknown (h : s.ReportsFree c r z l) (hhand : r.trip ≠ 0)
    (haisle : l.ctx.aisle = .inAisle z) (hlock : s.holdsLock c z = true)
    (hdue : l.reconcileDue = false) (hnew : l.ctx.newlyActive r = 0)
    (hstranded : s.strandedTrip c r.trip = []) :
    s.takeStatus c r = s.setLine c { l.taken r z with stale := [r.trip] } := by
  obtain rfl := h.line
  rw [State.takeStatus_of_unknown (State.stored_inPlace h.place haisle hlock hdue hnew) h.noExchange h.noTrip h.noStale hhand
    hstranded]
  rfl

end State.ReportsFree

/-! ## A crane that joins the car queue (R104) -/

section joining

variable {s : State} {c : Fin 8} {r : StatusReport} {z : Fin 16} {l : Line} {t : Trip}

/-- The crane reports its own trip from the head of the aisle where it stands. -/
theorem State.takeStatus_joins (hl : s.line c = l) (hr : r.aisle = .inAisle z) (hhead : r.atHead = true)
    (haisle : l.ctx.aisle = .inAisle z) (hlock : s.holdsLock c z = true) (hdue : l.reconcileDue = false)
    (hx : l.exchange = none) (hnew : l.ctx.newlyActive r = 0) (ht : l.trip = some t) (hnumber : t.number = r.trip) :
    s.takeStatus c r = (s.setLine c (l.taken r z)).joinQueue c z := by
  subst hl
  have hline (l : Line) : (s.setLine c l).line c = l := State.line_setLine s c l
  have hknown : ((s.line c).reported r z).holdsTrip r.trip = true := by
    simp [Line.holdsTrip, Line.reported, ht, hnumber]
  rw [State.takeStatus_of_known (State.stored_inPlace hr haisle hlock hdue hnew), State.setLine_setLine, hline,
    State.joinByStatus_of_atHead hhead hr]
  · rfl
  · rw [hline]; exact hx
  · rw [hline]; exact .inr hknown

end joining

end Sys2Proof.Machine
end

section
/-! The statement on a STATUS: what the event of each course completes with (R138). -/

namespace Sys2Proof.Machine

/-! ## The event of a STATUS -/

section event

variable {s u : State} {c : Fin 8} {r : StatusReport} {z : Fin 16} {mode aisle bay level flags faults trip leg : Byte}

theorem State.link_restartSilence (s : State) (c d : Fin 8) :
    ((s.restartSilence c).line d).link = (s.line d).link := by
  by_cases hd : d = c
  · rw [hd, State.line_restartSilence]
  · rw [State.restartSilence_eq, State.line_setLine_ne _ _ _ _ hd]

/-- A STATUS that notes inputs, and leaves the crane without a trip and with nothing waiting. -/
theorem completes_status_noting {m : Line} {x : List (Fin 8 × Nat)}
    (hread : readStatus mode aisle bay level flags faults trip leg = some r) (hlink : (s.line c).link = .up)
    (htaken : (s.restartSilence c).takeStatus c r = (u.setLine c m).noting x) (hu : u.scratch = .empty)
    (htrip : m.trip = none) (hstale : m.stale = []) :
    Completes (.status c mode aisle bay level flags faults trip leg) s (u.setLine c m) :=
  completes_craneTelegram (exec_status hread c s) hlink htaken hu
    (by rw [State.line_setLine]; exact Line.nothingWaits_of_noTrip htrip hstale)

theorem completes_status_free {m : Line}
    (hread : readStatus mode aisle bay level flags faults trip leg = some r) (hlink : (s.line c).link = .up)
    (htaken : (s.restartSilence c).takeStatus c r = u.setLine c m) (hu : u.scratch = .empty)
    (htrip : m.trip = none) (hstale : m.stale = []) :
    Completes (.status c mode aisle bay level flags faults trip leg) s (u.setLine c m) :=
  completes_status_noting hread hlink (htaken.trans (State.noting_nil _).symm) hu htrip hstale

/-- One that leaves it with an accepted trip no leg of which has its cancel wanted. -/
theorem completes_status_trip {l : Line} {t : Trip}
    (hread : readStatus mode aisle bay level flags faults trip leg = some r) (hlink : (s.line c).link = .up)
    (htaken : (s.restartSilence c).takeStatus c r = u.setLine c l) (hu : u.scratch = .empty) (ht : l.trip = some t)
    (haccepted : t.accepted = true) (hlegs : ∀ g ∈ t.legs, g.cancelWanted = false) (hstale : l.stale = []) :
    Completes (.status c mode aisle bay level flags faults trip leg) s (u.setLine c l) :=
  completes_craneTelegram (x := []) (exec_status hread c s) hlink (htaken.trans (State.noting_nil _).symm) hu
    (by rw [State.line_setLine]
        exact Line.nothingWaits_of_accepted ht haccepted (fun g hg => Leg.wantsCancel_eq_false (.inl (hlegs g hg))) hstale)

/-- The oldest stale number's CANCEL ALL goes out when the line allows (R119, R131). -/
theorem State.sendWaiting_stale {n : Nat} {rest : List Nat} (hlink : (s.line c).link = .up)
    (hx : (s.line c).exchange = none) (htrip : (s.line c).trip = none) (hstale : (s.line c).stale = n :: rest) :
    s.sendWaiting c = s.setLine c { s.line c with
      stale := rest
      exchange := some ⟨.cancelAll n, .cancel n 0, 0, s.settings.tack⟩
      sent := (s.line c).sent ++ [Telegram.cancel n 0] } := by
  simp [State.sendWaiting, hlink, hx, Line.tripToOrder_of_noTrip htrip, hstale, State.openExchange_eq, State.updateLine]

/-- A STATUS that leaves it without a trip, and stale numbers listed: the oldest one's CANCEL ALL is sent. -/
theorem completes_status_cancels {l : Line} {n : Nat} {rest : List Nat}
    (hread : readStatus mode aisle bay level flags faults trip leg = some r) (hup : (s.line c).link = .up)
    (htaken : (s.restartSilence c).takeStatus c r = s.setLine c l) (hS : s.scratch = .empty) (hlink : l.link = .up)
    (hx : l.exchange = none) (htrip : l.trip = none) (hstale : l.stale = n :: rest) :
    Completes (.status c mode aisle bay level flags faults trip leg) s (s.setLine c { l with
      stale := rest, exchange := some ⟨.cancelAll n, .cancel n 0, 0, s.settings.tack⟩
      sent := l.sent ++ [Telegram.cancel n 0] }) := by
  have hline : (s.setLine c l).line c = l := State.line_setLine s c l
  have hsent := State.sendWaiting_stale (s := s.setLine c l) (c := c) (by rw [hline]; exact hlink)
    (by rw [hline]; exact hx) (by rw [hline]; exact htrip) (by rw [hline]; exact hstale)
  rw [hline, State.setLine_setLine] at hsent
  refine completes_of_gathered (exec_status hread c s) (x := ((s.setLine c l).noteLine c).scratch) ?_
    (congrArg Scratch.own hS) (congrArg Scratch.collected hS)
  rw [State.craneTelegram_of_up hup, htaken, hsent]
  rfl

end event

theorem Line.taken_of_unchecked {l : Line} (h : l.strandedCheck = false) (r : StatusReport) (z : Fin 16) :
    l.taken r z = { l with notReady := if r.trip = 0 then false else l.notReady, ctx := l.ctx.reported r z } := by
  simp only [Line.taken, h]

/-- Settles O48: the course of the STATUS, from the line that its arrival leaves, and that nothing but a CANCEL ALL waits. -/
theorem statusIsTakenWhole : Obligations.StatusIsTakenWhole := by
  refine ⟨fun c mode aisle bay level flags faults trip leg r z l s hS hread hr hz hlink htrip hx hstale hl => ?_,
    fun c mode aisle bay level flags faults trip leg r z l t y s hS hread hr hhead hz haisle hlock hdue hlink hx hstale
      hnew htrip hnumber haccepted hlegs htransfer hstage hcarried hl => ?_⟩
  · have h : (s.restartSilence c).ReportsFree c r z (s.heard c) :=
      State.ReportsFree.restartSilence ⟨rfl, hr, hz, hlink, htrip, hx, hstale⟩
    have htaken (hcheck : (s.line c).strandedCheck = false) : (s.heard c).taken r z = l :=
      (Line.taken_of_unchecked (l := s.heard c) hcheck r z).trans hl.symm
    have hlinks := State.link_restartSilence s c
    refine ⟨fun hhand hcheck hdue hlock haisle => ⟨fun hnew => ?_, fun hnew => ?_⟩,
      fun hhand hcheck hnew hcar hdue => ⟨fun hyielded => ⟨fun hother => ?_, fun y hy hheld hother => ?_⟩,
        fun d hd hne hdefended => ⟨fun hclear => ?_, fun hset => ?_⟩⟩,
      fun i k j hcheck hdue hhand hhead hnew hcar hstranded hj hassignment hw hlock hother => ?_,
      fun hhand hdue hlock haisle hnew hstranded => ?_⟩
    · obtain rfl := htaken hcheck
      have hplain := h.takeStatus_inPlace hhand haisle hlock hdue hnew
      rw [State.setLine_restartSilence] at hplain
      exact completes_status_free hread hlink hplain hS.scratch htrip hstale
    · obtain rfl := htaken hcheck
      obtain ⟨x, hfaulted⟩ := h.takeStatus_faulted hhand haisle hlock hdue hnew
      rw [State.setLine_restartSilence] at hfaulted
      exact completes_status_noting (u := s.raise .craneFault) hread hlink hfaulted hS.scratch htrip hstale
    · obtain rfl := htaken hcheck
      have hgot := h.takeStatus_getsLock hhand hcheck hdue hnew (fun d hd => by rw [hlinks]; exact hyielded d hd) hother
      rw [State.setAisle_setLine_comm, State.setLine_restartSilence] at hgot
      exact completes_status_free (u := s.setAisle z _) hread hlink hgot hS.scratch htrip hstale
    · obtain rfl := htaken hcheck
      have hmoved := h.takeStatus_movesLock hhand hcheck hdue hnew hcar
        (fun d hd => by rw [hlinks]; exact hyielded d hd) hy hheld hother
      rw [State.tellDispatcher_setLine_comm, State.setAisle_setLine_comm, State.setAisle_setLine_comm,
        State.setLine_restartSilence] at hmoved
      exact completes_status_free (u := ((s.setAisle z _).setAisle y _).tellDispatcher) hread hlink hmoved hS.scratch
        htrip hstale
    · obtain rfl := htaken hcheck
      have hconflict := h.takeStatus_conflicts hhand hcheck hdue hnew hd hne (by rw [hlinks]; exact hdefended) hclear
      rw [State.raise_setLine_comm, State.setLine_restartSilence] at hconflict
      exact completes_status_free (u := s.raise .craneFault) hread hlink hconflict hS.scratch htrip hstale
    · obtain rfl := htaken hcheck
      have hstands := h.takeStatus_conflictStands hhand hcheck hdue hnew hd hne (by rw [hlinks]; exact hdefended) hset
      rw [State.setLine_restartSilence] at hstands
      exact completes_status_free hread hlink hstands hS.scratch htrip hstale
    · subst hl
      have hrebuilt := h.takeStatus_rebuilds hhand hcheck hdue hhead hnew hcar hstranded hj hassignment hw hlock hother
      rw [State.setJob_setLine_comm, State.setLine_restartSilence] at hrebuilt
      exact completes_status_trip (u := s.setJob i { j with state := .active }) hread hlink hrebuilt hS.scratch rfl rfl
        (by simp) hstale
    · subst hl
      have hunknown := h.takeStatus_unknown hhand haisle hlock hdue hnew hstranded
      rw [State.setLine_restartSilence] at hunknown
      exact completes_status_cancels (rest := (s.line c).stale) hread hlink hunknown hS.scratch hlink hx htrip
        (by rw [hstale])
  · obtain rfl : (s.heard c).taken r z = l := hl.symm
    have htrip' : ((s.heard c).taken r z).trip = some t := htrip
    have hjoins := State.takeStatus_joins (State.line_restartSilence s c) hr hhead haisle hlock hdue hx hnew htrip hnumber
    rw [State.setLine_restartSilence] at hjoins
    refine ⟨fun harrived => ?_, fun helsewhere hmay => ?_, fun m helsewhere hmay hqueue hcarx hm => ?_⟩
    · have harrives := State.joinQueue_arrived htrip' htransfer haccepted hstage hcarried harrived
      exact completes_status_trip hread hlink (hjoins.trans harrives) hS.scratch rfl haccepted hlegs hstale
    · have hwaits := State.joinQueue_waits htrip' htransfer haccepted hstage hcarried helsewhere hmay
      exact completes_status_trip hread hlink (hjoins.trans hwaits) hS.scratch rfl haccepted hlegs hstale
    · have hserved := State.joinQueue_served htrip' htransfer haccepted hstage hcarried helsewhere hmay hqueue hcarx hm
      exact completes_status_trip hread hlink (hjoins.trans hserved) hS.scratch rfl haccepted hlegs hstale

end Sys2Proof.Machine
end

section
/-! What a settled state is settled by, and which moves leave it settled (R173, R178). -/

namespace Sys2Proof.Machine

/-- The conditions read the DONE list, the records, the lines and the car (R173). -/
theorem State.heldConditions_congr {s t : State} (hdone : t.done = s.done) (hjobs : t.jobs = s.jobs)
    (hlines : t.lines = s.lines) (hcar : t.car = s.car) : t.heldConditions = s.heldConditions := by
  have hbit (a : Alert) : t.conditionBit a = s.conditionBit a := by
    have hheld : t.conditionHeld a = s.conditionHeld a := by
      cases a <;> simp only [State.conditionHeld, State.anyLine, State.line, hdone, hjobs, hlines, hcar]
    rw [State.conditionBit, hheld, State.conditionBit]
  simp only [State.heldConditions, hbit]

theorem State.settled_ite {p : Prop} [Decidable p] {s t : State} (hs : s.Settled) (ht : t.Settled) :
    (if p then s else t).Settled := by
  split
  · exact hs
  · exact ht

namespace State.Settled

variable {s t : State} (h : s.Settled)
include h

/-- A move that leaves what the conditions read, and of the port what R173 and R178 speak of. -/
theorem aside (hdone : t.done = s.done) (hjobs : t.jobs = s.jobs) (hlines : t.lines = s.lines) (hcar : t.car = s.car)
    (hscratch : t.scratch = s.scratch) (hconditions : t.host.conditions = s.host.conditions)
    (hattention : t.host.attention = t.host.wantsAttention) : t.Settled :=
  ⟨hscratch.trans h.scratch,
    hconditions.trans (h.conditions.trans (State.heldConditions_congr hdone hjobs hlines hcar).symm), hattention⟩

/-- A move beside the port that no condition reads. -/
theorem beside (hhost : t.host = s.host := by rfl) (hdone : t.done = s.done := by rfl) (hjobs : t.jobs = s.jobs := by rfl)
    (hlines : t.lines = s.lines := by rfl) (hcar : t.car = s.car := by rfl) (hscratch : t.scratch = s.scratch := by rfl) :
    t.Settled :=
  h.aside hdone hjobs hlines hcar hscratch (by rw [hhost]) (by rw [hhost, h.attention])

/-! ## Moves of the port -/

theorem hostGathered (g : List Byte) : ({ s with host := { s.host with gathered := g } } : State).Settled :=
  h.aside rfl rfl rfl rfl rfl rfl h.attention

theorem withRequests (l : List Request) : ({ s with host := { s.host with requests := l } } : State).Settled :=
  h.aside rfl rfl rfl rfl rfl rfl h.attention

theorem popRequest : s.popRequest.Settled := h.withRequests _

theorem joinRequests (r : Request) : (s.joinRequests r).Settled := State.settled_ite (h.withRequests _) h

/-- Another alert set or mask, ATTENTION following (R178). -/
theorem withAlerts (alerts mask : AlertSet) :
    ({ s with host := s.host.withAlerts alerts mask } : State).Settled := h.aside rfl rfl rfl rfl rfl rfl rfl

/-! ## Groups (R82, R83) -/

theorem advanceGroup (g : Fin 16) (o : OpenGroup) : (s.advanceGroup g o).Settled := by
  unfold State.advanceGroup
  dsimp only
  split <;> exact h.beside

theorem finishRank (g : Fin 16) (r : Nat) : (s.finishRank g r).Settled := by
  unfold State.finishRank
  split
  · exact h
  · split
    · exact h.advanceGroup _ _
    · split
      · exact h.beside
      · exact h

/-! ## Moves of a line or the car that no condition reads -/

/-- A line whose link and context stand. -/
theorem updateLine (c : Fin 8) {f : Line → Line} (hlink : (f (s.line c)).link = (s.line c).link)
    (hctx : (f (s.line c)).ctx = (s.line c).ctx) : (s.updateLine c f).Settled :=
  ⟨h.scratch, h.conditions.trans (State.heldConditions_setLine hlink hctx).symm, h.attention⟩

theorem setCounters (c : Fin 8) (k : Counters) : (s.setCounters c k).Settled := h.updateLine c rfl rfl

theorem carGathered (g : List Byte) : (s.updateCar (fun k => { k with gathered := g })).Settled :=
  ⟨h.scratch, h.conditions, h.attention⟩

/-- A list of moves that each leave a settled state settled. -/
theorem foldl {β : Type} {f : State → β → State} (hf : ∀ u x, u.Settled → (f u x).Settled) (l : List β) :
    (l.foldl f s).Settled := by
  induction l generalizing s with
  | nil => exact h
  | cons x xs ih => exact ih (hf s x h)

end State.Settled

end Sys2Proof.Machine
end

section
/-! The request commands: how each is carried out, and with it what all of them have in common (R169, R170, R171). -/

namespace Sys2Proof.Machine

/-! ## The owners whose effects end the event themselves -/

namespace State.Settled

variable {s : State} (h : s.Settled) (b : List Byte)
include h

theorem serveSetAisle : (s.serveSetAisle b).state.Settled := by
  unfold State.serveSetAisle
  split
  · exact h
  · dsimp only
    split
    · exact h.beside
    · split
      · exact h
      · split
        · exact h
        · exact h.beside

theorem loadEntries (a : Fin 16) (n k : Nat) : (loadEntries a b n k s).1.Settled := by
  induction n generalizing k s with
  | zero => exact h
  | succ n ih =>
    unfold Machine.loadEntries
    dsimp only
    split
    · exact h
    · split
      · exact ih h.beside _
      · exact h

theorem serveLoadSlots : (s.serveLoadSlots b).state.Settled := by
  unfold State.serveLoadSlots
  dsimp only
  split
  · exact h
  · split
    · exact h
    · split
      · exact h
      · split <;> exact h.loadEntries b _ _ _

theorem serveSetFilter : (s.serveSetFilter b).state.Settled := by
  unfold State.serveSetFilter
  split
  · exact h
  · split
    · exact h
    · exact h.beside

theorem serveSetWeights : (s.serveSetWeights b).state.Settled := by
  unfold State.serveSetWeights
  split
  · exact h
  · exact h.beside

theorem serveOpenGroup : (s.serveOpenGroup b).state.Settled := by
  unfold State.serveOpenGroup
  split
  · exact h
  · split
    · exact h
    · split
      · exact h
      · exact h.beside

theorem serveCloseGroup : (s.serveCloseGroup b).state.Settled := by
  unfold State.serveCloseGroup
  split
  · exact h
  · split
    · exact h
    · split
      · exact h.beside
      · exact h

theorem serveSkipRank : (s.serveSkipRank b).state.Settled := by
  unfold State.serveSkipRank
  split
  · exact h
  · split
    · exact h
    · dsimp only
      split
      · exact h
      · split
        · exact h
        · split
          · exact h
          · exact h.finishRank _ _

theorem enableAisle (a : Fin 16) (e : Bool) : (s.enableAisle a e).Settled := by
  unfold State.enableAisle
  dsimp only
  split <;> exact h.beside

theorem serveAisleEnable : (s.serveAisleEnable b).state.Settled := by
  unfold State.serveAisleEnable
  split
  · split
    · exact h
    · exact h.enableAisle _ _
  · exact h

theorem serveSetCounters : (s.serveSetCounters b).state.Settled := by
  unfold State.serveSetCounters
  split
  · exact h.setCounters _ _
  · exact h

theorem serveReadCounters : (s.serveReadCounters b).state.Settled := by
  unfold State.serveReadCounters
  split
  · rename_i c clear _ _
    cases clear
    · exact h
    · exact h.setCounters c _
  · exact h

theorem serveAlertMask : (s.serveAlertMask b).state.Settled := by
  unfold State.serveAlertMask
  split
  · exact h
  · exact h.withAlerts _ _

omit b in
theorem serveStart : s.serveStart.state.Settled := by
  unfold State.serveStart
  split
  · exact h
  · split
    · exact h
    · exact h.beside

end State.Settled

/-! ## The three ways of carrying a request out -/

/-- How the turn of request `r` is carried out: steps 3 to 5 of R170 with the end of an event, by an owner whose effects end
the event themselves and leave a settled state settled, or by a look that changes nothing. -/
inductive Handling (r : Request) : (State → State) → Prop
  | event (serve : State → Served) : Handling r (fun t => t.handle r serve)
  | plain {serve : State → Served} (h : ∀ t, t.Settled → (serve t).state.Settled) :
    Handling r (fun t => t.handlePlain r serve)
  | query (look : State → Status × List Byte) : Handling r (fun t => t.handleQuery r look)

namespace Handling

variable {r : Request} {g : State → State} {s : State} (hg : Handling r g)
include hg

/-- Step 3 of R170. -/
theorem wrongLength (h : lengthAgrees r.code r.body = false) : g s = s.answer r .badField [] := by
  cases hg with
  | event serve => exact State.handle_length s r serve h
  | plain _ => exact State.handlePlain_length s r _ h
  | query look => exact State.handleQuery_length s r look h

/-- Step 4 of R170. -/
theorem wrongPhase (h : lengthAgrees r.code r.body = true) (hp : admitted r.code s.phase = false) :
    g s = s.answer r .wrongPhase [] := by
  cases hg with
  | event serve => exact State.handle_phase s r serve h hp
  | plain _ => exact State.handlePlain_phase s r _ h hp
  | query look => exact State.handleQuery_phase s r look h hp

theorem settled (hs : s.Settled) : (g s).Settled := by
  cases hl : lengthAgrees r.code r.body with
  | false => rw [hg.wrongLength hl]; exact State.answer_settled _ _ _ _ hs
  | true =>
    cases hp : admitted r.code s.phase with
    | false => rw [hg.wrongPhase hl hp]; exact State.answer_settled _ _ _ _ hs
    | true =>
      cases hg with
      | event serve =>
        cases hc : (serve s).status.carriedOut <;> simp only [State.handle, hl, hp, hc]
        · exact State.answer_settled _ _ _ _ hs
        · exact State.answer_settled _ _ _ _ (State.finish_settled _ _)
      | @plain serve hserve =>
        cases hc : (serve s).status.carriedOut <;> simp only [State.handlePlain, hl, hp, hc]
        · exact State.answer_settled _ _ _ _ hs
        · exact State.answer_settled _ _ _ _ (hserve s hs)
      | query look =>
        cases hc : (look s).1.carriedOut <;> simp only [State.handleQuery, hl, hp, hc] <;>
          exact State.answer_settled _ _ _ _ hs

end Handling

/-! ## Every request command -/

/-- A request command whose code names a request is its request at the port. -/
theorem exec_request {i : Instr} {r : Request} (hr : i.request = some r) (hi : ∀ c n b, i ≠ .unknownRequestCode c n b) :
    ∃ g, Handling r g ∧ ∀ s, exec i s = .next (s.hostRequest r g) := by
  cases i <;> cases hr
  case unknownRequestCode c n b => exact absurd rfl (hi c n b)
  case postJob n b => exact ⟨_, .event _, fun _ => rfl⟩
  case postBatch n b => exact ⟨_, .event _, fun _ => rfl⟩
  case amendJob n b => exact ⟨_, .event _, fun _ => rfl⟩
  case stage n b => exact ⟨_, .event _, fun _ => rfl⟩
  case withdrawJob n b => exact ⟨_, .event _, fun _ => rfl⟩
  case queryJob n b => exact ⟨_, .query _, fun _ => rfl⟩
  case nextDone n b => exact ⟨_, .query _, fun _ => rfl⟩
  case retireJob n b => exact ⟨_, .event _, fun _ => rfl⟩
  case resolveJob n b => exact ⟨_, .event _, fun _ => rfl⟩
  case setAisle n b => exact ⟨_, .plain (fun _ h => h.serveSetAisle b), fun _ => rfl⟩
  case loadSlots n b => exact ⟨_, .plain (fun _ h => h.serveLoadSlots b), fun _ => rfl⟩
  case setSlot n b => exact ⟨_, .event _, fun _ => rfl⟩
  case querySlot n b => exact ⟨_, .query _, fun _ => rfl⟩
  case setHoldFilter n b => exact ⟨_, .plain (fun _ h => h.serveSetFilter b), fun _ => rfl⟩
  case setWeights n b => exact ⟨_, .plain (fun _ h => h.serveSetWeights b), fun _ => rfl⟩
  case queryDispatch n b => exact ⟨_, .query _, fun _ => rfl⟩
  case openGroup n b => exact ⟨_, .plain (fun _ h => h.serveOpenGroup b), fun _ => rfl⟩
  case closeGroup n b => exact ⟨_, .plain (fun _ h => h.serveCloseGroup b), fun _ => rfl⟩
  case skipRank n b => exact ⟨_, .plain (fun _ h => h.serveSkipRank b), fun _ => rfl⟩
  case queryGroup n b => exact ⟨_, .query _, fun _ => rfl⟩
  case setAisleEnable n b => exact ⟨_, .plain (fun _ h => h.serveAisleEnable b), fun _ => rfl⟩
  case queryAisle n b => exact ⟨_, .query _, fun _ => rfl⟩
  case setCar n b => exact ⟨_, .event _, fun _ => rfl⟩
  case queryCar n b => exact ⟨_, .query _, fun _ => rfl⟩
  case restartCarLine n b => exact ⟨_, .event _, fun _ => rfl⟩
  case setLines n b => exact ⟨_, .plain (fun _ h => h.beside), fun _ => rfl⟩
  case restartLine n b => exact ⟨_, .event _, fun _ => rfl⟩
  case setCrane n b => exact ⟨_, .event _, fun _ => rfl⟩
  case clearFaults n b => exact ⟨_, .event _, fun _ => rfl⟩
  case queryCrane n b => exact ⟨_, .query _, fun _ => rfl⟩
  case setCounters n b => exact ⟨_, .plain (fun _ h => h.serveSetCounters b), fun _ => rfl⟩
  case readCounters n b => exact ⟨_, .plain (fun _ h => h.serveReadCounters b), fun _ => rfl⟩
  case readAlerts n b => exact ⟨_, .query _, fun _ => rfl⟩
  case clearAlerts n b => exact ⟨_, .plain (fun _ h => h.withAlerts _ _), fun _ => rfl⟩
  case setAlertMask n b => exact ⟨_, .plain (fun _ h => h.serveAlertMask b), fun _ => rfl⟩
  case start n b => exact ⟨_, .plain (fun _ h => h.serveStart), fun _ => rfl⟩
  case halt n b => exact ⟨_, .plain (fun _ h => h.beside), fun _ => rfl⟩
  case resume n b => exact ⟨_, .plain (fun _ h => h.beside), fun _ => rfl⟩
  case resetController n b => exact ⟨_, .plain (fun _ h => h.beside), fun _ => rfl⟩

/-- A request behind another joins the list (R169). -/
theorem State.hostRequest_behind {s : State} {r q : Request} {rest : List Request} (hq : s.host.requests = q :: rest)
    (hne : q ≠ r) (g : State → State) : s.hostRequest r g = s.joinRequests r := by
  simp only [State.hostRequest, hq, if_neg hne]

theorem exec_unknownRequestCode_known {code n : Byte} {b : List Byte} (h : (requestRow code).isSome = true) (s : State) :
    exec (.unknownRequestCode code n b) s = .next (s.joinRequests ⟨code, n, b⟩) :=
  congrArg Host.Outcome.next (if_pos h)

theorem exec_unknownRequestCode_unknown {code n : Byte} {b : List Byte} (h : requestRow code = none) (s : State) :
    exec (.unknownRequestCode code n b) s =
      .next (s.hostRequest ⟨code, n, b⟩ (fun t => t.answer ⟨code, n, b⟩ .unknownRequest [])) :=
  congrArg Host.Outcome.next (if_neg (by simp [h]))

/-- Every request command behind another request is its frame joining the list (R169). -/
theorem exec_behind {i : Instr} {s : State} {r q : Request} {rest : List Request} (hr : i.request = some r)
    (hq : s.host.requests = q :: rest) (hne : q ≠ r) : exec i s = .next (s.joinRequests r) := by
  by_cases hi : ∃ c n b, i = .unknownRequestCode c n b
  · obtain ⟨c, n, b, rfl⟩ := hi
    obtain rfl : ⟨c, n, b⟩ = r := Option.some.inj hr
    cases hrow : requestRow c with
    | none => rw [exec_unknownRequestCode_unknown hrow, State.hostRequest_behind hq hne]
    | some row => exact exec_unknownRequestCode_known (by rw [hrow]; rfl) s
  · obtain ⟨g, -, hexec⟩ := exec_request hr (fun c n b h => hi ⟨c, n, b, h⟩)
    rw [hexec, State.hostRequest_behind hq hne]

theorem State.joinRequests_of_room {s : State} (h : s.host.requests.length < 8) (r : Request) :
    s.joinRequests r = { s with host := { s.host with requests := s.host.requests ++ [r] } } := if_pos h

theorem State.joinRequests_of_full {s : State} (h : 8 ≤ s.host.requests.length) (r : Request) : s.joinRequests r = s :=
  if_neg (Nat.not_lt.2 h)

/-- Settles O10: the room is for 8 requests, the head among them. -/
theorem requestBehindAnotherWaits : Obligations.RequestBehindAnotherWaits := by
  intro i r q rest s hr hq hne
  rw [exec_behind hr hq hne]
  have hlength : s.host.requests.length = rest.length + 1 := by rw [hq, List.length_cons]
  refine ⟨fun hroom => ?_, fun hfull => ?_⟩
  · rw [State.joinRequests_of_room (by omega), hq]
  · rw [State.joinRequests_of_full (by omega)]

/-- Settles O11: the length is checked before anything else of the request. -/
theorem wrongLengthIsRefused : Obligations.WrongLengthIsRefused := by
  intro i r row s hr _ hlength hturn hi
  obtain ⟨g, hg, hexec⟩ := exec_request hr hi
  rw [hexec, State.hostRequest_of_turn s r g hturn, hg.wrongLength hlength]

/-- Settles O12: the phase is checked before the owner sees the request. -/
theorem wrongPhaseIsRefused : Obligations.WrongPhaseIsRefused := by
  intro i r s hr hlength hphase hturn hi
  obtain ⟨g, hg, hexec⟩ := exec_request hr hi
  rw [hexec, State.hostRequest_of_turn s r g hturn, hg.wrongPhase (s := s.popRequest) hlength hphase]

/-- Settles O9: a code without a row is told apart before its turn, and its turn is the reply alone. -/
theorem unknownRequestIsAnswered : Obligations.UnknownRequestIsAnswered := by
  intro code n b s hrow hturn
  rw [exec_unknownRequestCode_unknown hrow, State.hostRequest_of_turn _ _ _ hturn]

end Sys2Proof.Machine
end

section
/-! The statement on every step: the commands that are no requests leave a settled state settled too (R173, R178). -/

namespace Sys2Proof.Machine

/-! ## Power-on and the reset (R184, R185) -/

theorem State.line_afterReset (s : State) (c : Fin 8) : s.afterReset.line c = (s.line c).afterReset := by
  simp [State.line, State.afterReset, Vector.get_eq_getElem]

/-- No condition is held after a reset: the lines differ from those after power-on in what has been sent alone. -/
theorem State.heldConditions_afterReset (s : State) : s.afterReset.heldConditions = 0 := by
  have hlines (p : Line → Bool) (hp : ∀ l : Line, p l.afterReset = false) : s.afterReset.anyLine p = false := by
    simp only [State.anyLine, State.line_afterReset, hp, List.any_eq_false, Bool.false_eq_true, not_false_eq_true,
      implies_true]
  have hbit (a : Alert) : s.afterReset.conditionBit a = 0 := by
    have hheld : s.afterReset.conditionHeld a = false := by
      cases a with
      | craneLost => exact hlines (fun l => l.link == .lost) (fun _ => rfl)
      | craneFault => exact hlines (fun l => l.ctx.latched != 0 || l.ctx.conflict) (fun _ => rfl)
      | service => exact hlines (fun l => l.ctx.drained) (fun _ => rfl)
      | _ => rfl
    rw [State.conditionBit, hheld, if_neg Bool.false_ne_true]
  simp only [State.heldConditions, hbit, BitVec.or_self]

theorem State.afterReset_settled (s : State) : s.afterReset.Settled :=
  ⟨rfl, s.heldConditions_afterReset.symm, (by decide : false = ((0 : AlertSet) &&& BitVec.allOnes 10 != 0))⟩

theorem State.powerOn_settled (level : HoldLevel) : (State.powerOn level).Settled :=
  have ⟨hsettled, _⟩ := powerOnMeetsTheInvariants.2 level
  hsettled

/-! ## Bytes on the links (R115, R168) -/

namespace State.Settled

variable {s : State} (h : s.Settled)
include h

theorem receiveHostFrame (frame : List Byte) : (s.receiveHostFrame frame).Settled := by
  unfold State.receiveHostFrame
  split
  · exact h.joinRequests _
  · exact h
  · exact h

theorem receiveHostByte (b : Byte) : (s.receiveHostByte b).Settled := by
  unfold State.receiveHostByte
  dsimp only
  split
  · exact (h.hostGathered _).receiveHostFrame _
  · exact h.hostGathered _

theorem receiveCarContent (content : List Byte) : (s.receiveCarContent content).Settled :=
  State.settled_ite (State.event_settled _ _) (State.settled_ite (State.event_settled _ _)
    (State.settled_ite (State.event_settled _ _) (State.settled_ite (State.event_settled _ _) h)))

theorem receiveCarByte (b : Byte) : (s.receiveCarByte b).Settled := by
  unfold State.receiveCarByte
  dsimp only
  split
  · unfold State.receiveCarFrame
    split
    · exact (h.carGathered _).receiveCarContent _
    · exact h.carGathered _
  · exact h.carGathered _

omit h in
/-- A telegram of a crane is an event, whatever it carries. -/
theorem receiveCraneContent (s : State) (c : Fin 8) (content : List Byte) : (s.receiveCraneContent c content).Settled := by
  have hevent (f : State → State) : (s.event f).Settled := State.event_settled s f
  exact State.settled_ite (hevent _) (State.settled_ite (hevent _) (State.settled_ite (hevent _)
    (State.settled_ite (hevent _) (State.settled_ite (hevent _) (State.settled_ite
      (State.settled_ite (hevent _) (hevent _)) (hevent _))))))

theorem receiveCraneByte (c : Fin 8) (b : Byte) : (s.receiveCraneByte c b).Settled := by
  unfold State.receiveCraneByte
  dsimp only
  split
  · unfold State.receiveCraneFrame
    split
    · exact receiveCraneContent _ _ _
    · exact State.event_settled _ _
  · exact h.updateLine c rfl rfl

theorem hostRequest {r : Request} {g : State → State} (hg : ∀ t, t.Settled → (g t).Settled) :
    (s.hostRequest r g).Settled := by
  unfold State.hostRequest
  split
  · exact hg _ h
  · split
    · exact hg _ h.popRequest
    · exact h.joinRequests _

/-! ## Every command -/

/-- A request command answers with a settled state. -/
theorem exec_request_settled {i : Instr} {r : Request} (hr : i.request = some r) : ∃ t, exec i s = .next t ∧ t.Settled := by
  by_cases hi : ∃ c n b, i = .unknownRequestCode c n b
  · obtain ⟨c, n, b, rfl⟩ := hi
    cases hrow : requestRow c with
    | none =>
      exact ⟨_, exec_unknownRequestCode_unknown hrow s, h.hostRequest fun t ht => State.answer_settled t _ _ _ ht⟩
    | some row => exact ⟨_, exec_unknownRequestCode_known (by rw [hrow]; rfl) s, h.joinRequests _⟩
  · obtain ⟨g, hg, hexec⟩ := exec_request hr (fun c n b e => hi ⟨c, n, b, e⟩)
    exact ⟨_, hexec s, h.hostRequest fun _ ht => hg.settled ht⟩

/-- Every command answers with a settled state. -/
theorem exec_settled (i : Instr) : ∃ t, exec i s = .next t ∧ t.Settled := by
  cases hr : i.request with
  | some r => exact h.exec_request_settled hr
  | none =>
    cases i with
    | powerOn level => exact ⟨_, rfl, (State.powerOn_settled level).beside⟩
    | resetTakesEffect => exact ⟨_, rfl, State.settled_ite s.afterReset_settled h⟩
    | hostFrameReceived bytes => exact ⟨_, rfl, h.foldl (fun u b hu => hu.receiveHostByte b) bytes⟩
    | hostFrameGapTimeout => exact ⟨_, rfl, h.hostGathered []⟩
    | telegramDiscarded line bytes =>
      cases line with
      | crane c => exact ⟨_, rfl, h.foldl (fun u b hu => hu.receiveCraneByte c b) bytes⟩
      | car => exact ⟨_, rfl, h.foldl (fun u b hu => hu.receiveCarByte b) bytes⟩
    | telegramGapTimeout line =>
      cases line with
      | crane c => exact ⟨_, rfl, h.updateLine c rfl rfl⟩
      | car => exact ⟨_, rfl, h.carGathered []⟩
    | answerTimerExpiry c =>
      refine ⟨_, rfl, ?_⟩
      split
      · exact State.event_settled _ _
      · exact h
    | carJobTimeout =>
      refine ⟨_, rfl, ?_⟩
      split
      · exact h
      · exact State.settled_ite h (State.event_settled _ _)
    | introductionTimerExpiry | counterOverflow => exact ⟨_, rfl, State.settled_ite (State.event_settled _ _) h⟩
    | dispatchClockTick | dispatchPass => exact ⟨_, rfl, State.settled_ite h (State.event_settled _ _)⟩
    | basePage | nextPage | orderAck | orderNak | status | legDone | cancelAnswer | pollIntervalExpiry | carAck | carNak
    | phase | carStatus | carAnswerTimerExpiry | carPollIntervalExpiry | holdInputChange | holdSettlingExpiry
    | stallLimitReached => exact ⟨_, rfl, State.event_settled _ _⟩
    | _ => cases hr

end State.Settled

/-- Settles O2: the front command leaves the queue, which no condition reads, and every command answers with a settled
state. -/
theorem everyStepKeepsSettled : Obligations.EveryStepKeepsSettled := by
  intro s t hS hstep
  cases hpending : s.pending with
  | nil =>
    rw [step, hpending] at hstep
    obtain rfl : s = t := Host.Outcome.next.inj hstep
    exact hS
  | cons i rest =>
    have hrest : ({ s with pending := rest } : State).Settled := hS.beside
    obtain ⟨u, hexec, hu⟩ := hrest.exec_settled i
    rw [stepRunsTheFrontCommand i rest s hpending, hexec] at hstep
    obtain rfl : u = t := Host.Outcome.next.inj hstep
    exact hu

end Sys2Proof.Machine
end

section
/-! The statements on the host link's bytes: frames and gaps (R115, R168, R169, R186). -/

namespace Sys2Proof.Machine

/-! ## Frames (R186) -/

theorem frameOf_eq (content : List Byte) : frameOf content = 2 :: BitVec.ofNat 8 content.length ::
    (content ++ put2 (crc16 (BitVec.ofNat 8 content.length :: content)).toNat) := rfl

theorem length_put2 (n : Nat) : (put2 n).length = 2 := rfl

/-- A frame round a content whose length lies within the limits passes its checks. -/
theorem checkFrame_of_rightCheck {low high : Nat} {len : Byte} {content : List Byte} (hlen : content.length = len.toNat)
    (hlow : low ≤ len.toNat) (hhigh : len.toNat ≤ high) :
    checkFrame low high (len :: (content ++ put2 (crc16 (len :: content)).toNat)) = some content := by
  simp [checkFrame, ← hlen, hlen ▸ hlow, hlen ▸ hhigh]

/-! ## The host's bytes (R168) -/

/-- Between frames a byte other than 02h is passed over. -/
theorem State.receiveHostByte_stray {s : State} (hg : s.host.gathered = []) {b : Byte} (hb : b ≠ 2) :
    s.receiveHostByte b = s := by
  have hhost : ({ s.host with gathered := [] } : HostPort) = s.host := by rw [← hg]
  simp only [State.receiveHostByte, gatherByte, hg, if_neg hb, hhost]

theorem State.receiveHostBytes_stray {s : State} (hg : s.host.gathered = []) {stray : List Byte}
    (h : ∀ b ∈ stray, b ≠ 2) : stray.foldl State.receiveHostByte s = s := by
  induction stray with
  | nil => rfl
  | cons b bs ih =>
    obtain ⟨hb, hbs⟩ := List.forall_mem_cons.1 h
    rw [List.foldl_cons, State.receiveHostByte_stray hg hb, ih hbs]

/-- A frame that comes between frames is received whole. -/
theorem State.receiveHostBytes_frame {s : State} (hg : s.host.gathered = []) {len : Byte} {rest : List Byte}
    (h : rest.length = len.toNat + 2) :
    (2 :: len :: rest).foldl State.receiveHostByte s = s.receiveHostFrame (len :: rest) := by
  have hs : ({ s with host := { s.host with gathered := [] } } : State) = s := by
    have hhost : ({ s.host with gathered := [] } : HostPort) = s.host := by rw [← hg]
    rw [hhost]
  have hfold := foldl_gatherByte (f := State.receiveHostByte)
    (gather := fun g => { s with host := { s.host with gathered := g } })
    (take := fun frame => ({ s with host := { s.host with gathered := [] } } : State).receiveHostFrame frame)
    (fun g b g' hb => by simp [State.receiveHostByte, hb])
    (fun g b frame hb => by simp [State.receiveHostByte, hb]) h
  rwa [hs] at hfold

/-- The request that a frame carries joins the list, or is discarded with a full one. -/
theorem exec_hostFrameReceived_frame {s : State} (hg : s.host.gathered = []) {code number : Byte}
    {body stray : List Byte} (hbody : body.length ≤ 253) (hstray : ∀ b ∈ stray, b ≠ 2) :
    exec (.hostFrameReceived (stray ++ frameOf (code :: number :: body))) s =
      .next (s.joinRequests ⟨code, number, body⟩) := by
  have hlen : (code :: number :: body).length = (BitVec.ofNat 8 (code :: number :: body).length).toNat := by
    simp only [List.length_cons, BitVec.toNat_ofNat]
    omega
  have hcheck := checkFrame_of_rightCheck (low := 2) (high := 255) hlen (by rw [← hlen]; simp)
    (by rw [← hlen]; simp only [List.length_cons]; omega)
  have hframe : (frameOf (code :: number :: body)).foldl State.receiveHostByte s =
      s.joinRequests ⟨code, number, body⟩ := by
    rw [frameOf_eq, State.receiveHostBytes_frame hg (by rw [List.length_append, length_put2, ← hlen]),
      State.receiveHostFrame, hcheck]
  show Host.Outcome.next ((stray ++ frameOf (code :: number :: body)).foldl State.receiveHostByte s) = _
  rw [List.foldl_append, State.receiveHostBytes_stray hg hstray, hframe]

/-- Settles O7: the stray bytes are passed over, and the frame passes its checks. -/
theorem hostFrameIsTakenWhole : Obligations.HostFrameIsTakenWhole := by
  intro code number body stray s hbody hstray hg
  rw [exec_hostFrameReceived_frame hg hbody hstray]
  exact ⟨fun hroom => by rw [State.joinRequests_of_room hroom], fun hfull => by rw [State.joinRequests_of_full hfull]⟩

/-- Settles O8: a gap writes the bytes gathered, on the host link as on a telegram line. -/
theorem gapsDiscardGatheredBytes : Obligations.GapsDiscardGatheredBytes :=
  fun _ => ⟨rfl, rfl, fun _ => rfl⟩

end Sys2Proof.Machine
end

section
/-! The statements on the alert requests (R175, R176, R177). -/

namespace Sys2Proof.Machine

/-- Settles O57: the look reads the port alone, which the request's turn leaves but for its list. -/
theorem readAlertsReportsAndChangesNothing : Obligations.ReadAlertsReportsAndChangesNothing := by
  intro n s hturn
  exact exec_query (i := .readAlerts n []) (len := 0) rfl (by decide) rfl hturn rfl

/-- A mask of the ten alerts stands in its two bytes (R187). -/
theorem toNat_alertSet {n : Nat} (h : n < 1024) : (BitVec.ofNat 10 n).toNat = n := by
  rw [BitVec.toNat_ofNat, Nat.mod_eq_of_lt h]

theorem State.serveAlertMask_ok {s : State} {b : List Byte} (h : wordAt b 0 < 1024) : s.serveAlertMask b =
    accept { s with host := s.host.withAlerts s.host.alerts (BitVec.ofNat 10 (wordAt b 0)) }
      (fun t => putAlerts t.host.mask ++ putFlag t.host.attention) := if_neg (Nat.not_le.2 h)

theorem State.serveAlertMask_refused {s : State} {b : List Byte} (h : 1024 ≤ wordAt b 0) :
    s.serveAlertMask b = refuse s .badField := if_pos h

/-- Settles O58: either request is admitted in every phase and ends its event itself, with ATTENTION following. -/
theorem alertsAreClearedAndMasked : Obligations.AlertsAreClearedAndMasked := by
  intro n b s now mask hlen
  have hclear : requestRow 0x81 = some (everyPhase 0x81 2) := by decide
  have hmask : requestRow 0x82 = some (everyPhase 0x82 2) := by decide
  refine ⟨?_, fun hturn => ⟨?_, fun hbeyond => ?_⟩⟩
  · rintro rfl hturn
    exact exec_served (i := .clearAlerts n b) rfl hturn (lengthAgrees_everyPhase hclear hlen)
      (admitted_everyPhase _ hclear) rfl rfl
  · rintro hwithin rfl
    have hset := exec_served (i := .setAlertMask n b) rfl hturn (lengthAgrees_everyPhase hmask hlen)
      (admitted_everyPhase _ hmask) (State.serveAlertMask_ok hwithin) rfl
    rw [hset]
    show Host.Outcome.next (State.answer _ _ _ (put2 (BitVec.ofNat 10 (wordAt b 0)).toNat ++ _)) = _
    rw [toNat_alertSet hwithin]
    rfl
  · exact exec_refused (i := .setAlertMask n b) rfl hturn (lengthAgrees_everyPhase hmask hlen)
      (admitted_everyPhase _ hmask) (State.serveAlertMask_refused hbeyond) rfl

end Sys2Proof.Machine
end

section
/-! The statements on power-on, the reset and the run requests (R181, R182, R184, R185). -/

namespace Sys2Proof.Machine

/-! ## Power-on (R184) -/

theorem State.aisle_powerOn (level : HoldLevel) (a : Fin 16) : (State.powerOn level).aisle a = .powerOn := by
  simp [State.aisle, State.powerOn, Vector.get_eq_getElem]

theorem State.group_powerOn (level : HoldLevel) (g : Fin 16) : (State.powerOn level).group g = .powerOn := by
  simp [State.group, State.powerOn, Vector.get_eq_getElem]

theorem State.line_powerOn (level : HoldLevel) (c : Fin 8) : (State.powerOn level).line c = .powerOn := by
  simp [State.line, State.powerOn, Vector.get_eq_getElem]

theorem Dispatcher.filter_powerOn (level : HoldLevel) (n : Fin 8) :
    (Dispatcher.powerOn level).filters.get n = .powerOn := by
  simp [Dispatcher.powerOn, Vector.get_eq_getElem]

/-- Settles O5: the values stand in the literal that POWER ON takes, those of the numbered records in each of them. -/
theorem powerOnValues : Obligations.PowerOnValues := by
  intro level s
  refine ⟨{ State.powerOn level with pending := s.pending }, rfl, rfl, rfl, rfl, rfl, rfl, rfl, rfl,
    State.aisle_powerOn level, State.group_powerOn level, rfl, Dispatcher.filter_powerOn level, rfl, rfl, rfl, rfl, rfl,
    by and_intros <;> rfl, fun c => ?_⟩
  have hline : ({ State.powerOn level with pending := s.pending } : State).line c = Line.powerOn :=
    State.line_powerOn level c
  rw [hline]
  and_intros <;> rfl

/-! ## The reset (R185) -/

/-- Settles O6: the request ends its event itself with the reset due; the effect is `State.afterReset`, in which each line
is as after power-on but for what has been sent. -/
theorem resetIsAnsweredThenTakesEffect : Obligations.ResetIsAnsweredThenTakesEffect := by
  refine ⟨fun n s hturn => ?_, fun s hdue => ?_, fun s hnone => ?_⟩
  · have hrow : requestRow 0x93 = some (everyPhase 0x93 0) := by decide
    exact exec_served (i := .resetController n []) rfl hturn (lengthAgrees_everyPhase hrow rfl)
      (admitted_everyPhase s.phase hrow) rfl rfl
  · have hexec : exec .resetTakesEffect s = .next s.afterReset := congrArg Host.Outcome.next (if_pos hdue)
    exact ⟨s.afterReset, hexec, rfl, rfl, rfl, rfl, rfl, rfl, rfl, rfl, State.aisle_powerOn s.disp.holdInput,
      State.group_powerOn s.disp.holdInput, rfl, rfl, rfl, rfl, s.line_afterReset⟩
  · exact congrArg Host.Outcome.next (if_neg (by simp [hnone]))

/-! ## The run requests (R181, R182) -/

/-- Without an aisle, or without the car that two aisles need, START is refused (R181). -/
theorem State.serveStart_refused {s : State}
    (h : s.configuredAisles = 0 ∨ (2 ≤ s.configuredAisles ∧ s.car.configured = false)) :
    s.serveStart = refuse s .notAllowed := by
  rcases h with hnone | ⟨htwo, hcar⟩
  · exact if_pos hnone
  · have hsome : s.configuredAisles ≠ 0 := by omega
    exact (if_neg hsome).trans (if_pos ⟨htwo, by simp [hcar]⟩)

/-- With one aisle, or with more and the car, START makes the phase RUNNING (R181). -/
theorem State.serveStart_runs {s : State}
    (h : s.configuredAisles = 1 ∨ (2 ≤ s.configuredAisles ∧ s.car.configured = true)) :
    s.serveStart = accept ({ s with phase := .running, clock := ⟨0, 0⟩ } : State).tellDispatcher State.putRun := by
  have hsome : s.configuredAisles ≠ 0 := by omega
  refine (if_neg hsome).trans (if_neg fun ⟨htwo, hcar⟩ => ?_)
  rcases h with hone | ⟨-, hconfigured⟩
  · omega
  · exact hcar hconfigured

theorem State.putRun_tellDispatcher (s : State) : s.tellDispatcher.putRun = s.putRun := rfl

theorem State.putRun_started (s : State) : ({ s with phase := .running, clock := ⟨0, 0⟩ } : State).putRun =
    [1, 0, 0, 0, 0, 0] := by
  show put1 (phaseCode .running) ++ put4 0 ++ put1 0 = _
  decide

/-- Settles O59: each request ends its event itself with what its owner makes of it. -/
theorem runRequestsChangeThePhase : Obligations.RunRequestsChangeThePhase := by
  intro n s
  refine ⟨fun hphase hturn => ?_, fun hphase hturn => ?_, fun hphase hturn => ?_⟩
  · have hl : lengthAgrees 0x90 [] = true := by decide
    have hp : admitted 0x90 s.phase = true := by rw [hphase]; decide
    refine ⟨fun hrefuse => ?_, fun hrun => ?_⟩
    · exact exec_refused (i := .start n []) rfl hturn hl hp (State.serveStart_refused (s := s.popRequest) hrefuse) rfl
    · have hexec := exec_served (i := .start n []) rfl hturn hl hp (State.serveStart_runs (s := s.popRequest) hrun) rfl
      rwa [State.putRun_tellDispatcher, State.putRun_started] at hexec
  · have hl : lengthAgrees 0x91 [] = true := by decide
    have hp : admitted 0x91 s.phase = true := by rw [hphase]; decide
    exact exec_served (i := .halt n []) rfl hturn hl hp rfl rfl
  · have hl : lengthAgrees 0x92 [] = true := by decide
    have hp : admitted 0x92 s.phase = true := by rw [hphase]; decide
    exact exec_served (i := .resume n []) rfl hturn hl hp rfl rfl

end Sys2Proof.Machine
end

section
/-! The statement on the dispatch clock (R183), with the ages (R6) and the stall timers (R87) that it counts. -/

namespace Sys2Proof.Machine

/-! ## A tenth of a second (R183) -/

/-- The tenth is noted for every crane's counters. -/
theorem State.foldl_noteInput (s : State) (code : Nat) (l : List (Fin 8)) :
    l.foldl (fun u c => u.noteInput c code) s =
      { s with scratch := { s.scratch with inputs := s.scratch.inputs ++ l.map (fun c => (c, code)) } } := by
  induction l generalizing s with
  | nil => simp
  | cons c cs ih => rw [List.foldl_cons, ih]; simp [State.noteInput]

/-- Without a transfer the car job timer does not count (R109). -/
theorem State.countCarJob_of_stopped {s : State} (h : s.car.jobTimer = none) : s.countCarJob = s := by
  have hcar : ({ s.car with jobTimer := s.car.jobTimer.map (· + 1) } : Car) = s.car := by rw [h, Option.map_none, ← h]
  have htimer : s.updateCar (fun k => { k with jobTimer := k.jobTimer.map (· + 1) }) = s := by
    rw [State.updateCar, hcar]
  rw [State.countCarJob, htimer, State.checkCarJob, h]

theorem Clock.tick_within {k : Clock} (h : k.tenths < 9) : k.tick = { k with tenths := k.tenths + 1 } := if_pos h

theorem Clock.tick_completes {k : Clock} (h : k.tenths = 9) :
    k.tick = ⟨if k.seconds < 4294967295 then k.seconds + 1 else 0, 0⟩ := if_neg (by omega)

/-- What a tenth of a second notes. -/
def tenthNoted : Scratch := ⟨allCranes.map (fun c => (c, 15)), [], [], []⟩

/-- With no transfer running, a tenth moves the clock, and a tick to the tenth 0 is a second too. -/
theorem State.countTenth_of_stopped {s : State} (hs : s.scratch = .empty) (hcar : s.car.jobTimer = none) :
    s.countTenth =
      if s.clock.tick.tenths = 0 then ({ s with clock := s.clock.tick, scratch := tenthNoted } : State).countSecond
      else { s with clock := s.clock.tick, scratch := tenthNoted } := by
  have hnoted : allCranes.foldl (fun u c => u.noteInput c 15) ({ s with clock := s.clock.tick } : State) =
      { s with clock := s.clock.tick, scratch := tenthNoted } := by
    rw [State.foldl_noteInput, hs]; rfl
  have hcarJob := State.countCarJob_of_stopped
    (s := { s with clock := s.clock.tick, scratch := tenthNoted }) hcar
  rw [State.countTenth, hnoted, hcarJob]

theorem exec_dispatchClockTick_counting {s : State} (h : s.phase ≠ .loading) :
    exec .dispatchClockTick s = .next (s.event State.countTenth) := congrArg Host.Outcome.next (if_neg h)

/-! ## A second at the groups (R87) -/

/-- The stall timer of an OPEN group one second later, before a stall is reported. -/
def OpenGroup.timed (o : OpenGroup) : OpenGroup := { o with stallTimer := min 65535 (o.stallTimer + 1) }

/-- The flag is set when the timer now stands at its limit, and stays when it was set. -/
theorem OpenGroup.secondLater_eq (o : OpenGroup) :
    o.secondLater = { o.timed with stallReported := o.stallReported || o.timed.stalls } := by
  have hreported : (o.stallReported || decide (o.stallLimit ≠ 0 ∧ o.stallLimit ≤ min 65535 (o.stallTimer + 1))) =
      (o.stallReported || o.timed.stalls) := by
    cases hflag : o.stallReported with
    | true => rw [Bool.true_or, Bool.true_or]
    | false =>
      rw [Bool.false_or, Bool.false_or, Bool.eq_iff_iff, decide_eq_true_iff, o.timed.stalls_iff]
      simp only [OpenGroup.timed, hflag, true_and]
  rw [OpenGroup.secondLater, hreported]
  rfl

theorem OpenGroup.secondLater_of_stalls {o : OpenGroup} (h : o.timed.stalls = true) :
    o.secondLater = { o.timed with stallReported := true } := by rw [o.secondLater_eq, h, Bool.or_true]

theorem OpenGroup.secondLater_of_not_stalls {o : OpenGroup} (h : o.timed.stalls = false) : o.secondLater = o.timed := by
  rw [o.secondLater_eq, h, Bool.or_false]; rfl

theorem Group.secondLater_closed {g : Group} (h : g.opened = none) : g.secondLater = g := by
  obtain ⟨members, opened⟩ := g
  obtain rfl : opened = none := h
  exact ite_self _

theorem Group.secondLater_empty {g : Group} (h : g.members = 0) : g.secondLater = g := if_pos h

theorem Group.secondLater_counting {g : Group} {o : OpenGroup} (ho : g.opened = some o) (h : g.members ≠ 0) :
    g.secondLater = { g with opened := some o.secondLater } := by rw [Group.secondLater, if_neg h, ho, Option.map_some]

theorem Group.stallsNext_closed {g : Group} (h : g.opened = none) : g.stallsNext = false := by
  rw [Group.stallsNext, h]

theorem Group.stallsNext_empty {g : Group} (h : g.members = 0) : g.stallsNext = false := by
  cases ho : g.opened with
  | none => exact Group.stallsNext_closed ho
  | some o => simp [Group.stallsNext, ho, h]

theorem Group.stallsNext_counting {g : Group} {o : OpenGroup} (ho : g.opened = some o) (h : g.members ≠ 0) :
    g.stallsNext = o.timed.stalls := by
  cases hreported : o.stallReported <;>
    simp [Group.stallsNext, ho, h, hreported, OpenGroup.secondLater_eq, OpenGroup.stalls, OpenGroup.timed]

theorem State.setGroup_group (s : State) (g : Fin 16) : s.setGroup g (s.group g) = s := by
  simp [State.setGroup, State.group, Vector.get_eq_getElem]

/-- A second at one group, SEQ_STALL being raised when its stall is then reported. -/
theorem State.countStall_eq (s : State) (g : Fin 16) : s.countStall g =
    if (s.group g).stallsNext then (s.setGroup g (s.group g).secondLater).raise .seqStall
    else s.setGroup g (s.group g).secondLater := by
  cases ho : (s.group g).opened with
  | none =>
    rw [Group.stallsNext_closed ho, if_neg Bool.false_ne_true, Group.secondLater_closed ho, State.setGroup_group]
    simp only [State.countStall, ho]
  | some o =>
    by_cases hmembers : (s.group g).members = 0
    · rw [Group.stallsNext_empty hmembers, if_neg Bool.false_ne_true, Group.secondLater_empty hmembers,
        State.setGroup_group]
      simp only [State.countStall, ho, if_pos hmembers]
    · have hcount : s.countStall g = (s.setGroup g { s.group g with opened := some o.timed }).reportStall g := by
        simp only [State.countStall, ho, if_neg hmembers]; rfl
      have hopened : ((s.setGroup g { s.group g with opened := some o.timed }).group g).opened = some o.timed := by
        rw [State.group_setGroup]
      rw [hcount, Group.stallsNext_counting ho hmembers, Group.secondLater_counting ho hmembers]
      cases hstalls : o.timed.stalls with
      | true =>
        rw [if_pos rfl, State.reportStall_stalls hopened hstalls, OpenGroup.secondLater_of_stalls hstalls,
          State.group_setGroup, State.setGroup_setGroup]
      | false =>
        rw [if_neg Bool.false_ne_true, OpenGroup.secondLater_of_not_stalls hstalls]
        exact State.reportStall_idle fun o' ho' => by
          obtain rfl : o.timed = o' := Option.some.inj (hopened.symm.trans ho')
          simp [hstalls]

/-- The groups of `l` one second later. -/
def State.groupsLater (s : State) (l : List (Fin 16)) : State :=
  { s with groups := Vector.ofFn (fun g => if g ∈ l then (s.group g).secondLater else s.group g) }

theorem State.groupsLater_raise (s : State) (l : List (Fin 16)) (x : Alert) :
    (s.raise x).groupsLater l = (s.groupsLater l).raise x := rfl

theorem State.raise_raise (s : State) (x : Alert) : (s.raise x).raise x = s.raise x := by
  simp only [State.raise, BitVec.or_assoc, BitVec.or_self]

theorem State.groupsLater_nil (s : State) : s.groupsLater [] = s := by
  have hgroups : Vector.ofFn (fun g => s.group g) = s.groups :=
    Vector.ext fun i hi => by simp [State.group, Vector.get_eq_getElem]
  simp only [State.groupsLater, List.not_mem_nil, if_false, hgroups]

theorem State.groupsLater_cons (s : State) {g : Fin 16} {l : List (Fin 16)} (h : g ∉ l) :
    (s.setGroup g (s.group g).secondLater).groupsLater l = s.groupsLater (g :: l) := by
  have hgroup (k : Fin 16) : (if k ∈ l then ((s.setGroup g (s.group g).secondLater).group k).secondLater
      else (s.setGroup g (s.group g).secondLater).group k) =
      if k ∈ g :: l then (s.group k).secondLater else s.group k := by
    by_cases hk : k = g
    · subst hk
      rw [if_neg h, if_pos List.mem_cons_self, State.group_setGroup]
    · rw [State.group_setGroup_ne _ _ _ _ hk]
      simp only [List.mem_cons, hk, false_or]
  simp only [State.groupsLater, hgroup]
  rfl

theorem mem_allGroups (g : Fin 16) : g ∈ allGroups := by revert g; decide

theorem State.groupsLater_all (s : State) :
    s.groupsLater allGroups = { s with groups := s.groups.map Group.secondLater } := by
  have hgroups : Vector.ofFn (fun g => (s.group g).secondLater) = s.groups.map Group.secondLater :=
    Vector.ext fun i hi => by simp [State.group, Vector.get_eq_getElem]
  simp only [State.groupsLater, mem_allGroups, if_true, hgroups]

/-- A second at different groups: each counts for itself, and SEQ_STALL is raised when any of them stalls. -/
theorem State.countStalls_eq (s : State) {l : List (Fin 16)} (hl : l.Nodup) : l.foldl State.countStall s =
    if ∃ g ∈ l, (s.group g).stallsNext = true then (s.groupsLater l).raise .seqStall else s.groupsLater l := by
  induction l generalizing s with
  | nil => simp [s.groupsLater_nil]
  | cons g gs ih =>
    obtain ⟨hg, hgs⟩ := List.nodup_cons.1 hl
    have hothers : (∃ k ∈ gs, ((s.setGroup g (s.group g).secondLater).group k).stallsNext = true) ↔
        ∃ k ∈ gs, (s.group k).stallsNext = true :=
      exists_congr fun k => and_congr_right fun hk => by
        rw [State.group_setGroup_ne _ _ _ _ (ne_of_mem_of_not_mem hk hg)]
    rw [List.foldl_cons, State.countStall_eq]
    cases hnext : (s.group g).stallsNext with
    | true =>
      rw [if_pos rfl, ih _ hgs, State.groupsLater_raise, State.groupsLater_cons s hg, State.raise_raise, ite_self,
        if_pos ⟨g, List.mem_cons_self, hnext⟩]
    | false =>
      rw [if_neg Bool.false_ne_true, ih _ hgs, State.groupsLater_cons s hg]
      simp only [hothers, List.exists_mem_cons_iff, hnext, Bool.false_eq_true, false_or]

/-- A second of the dispatch clock: the ages of the live records, and the stall timers. -/
theorem State.countSecond_eq (s : State) : s.countSecond =
    if ∃ g, (s.group g).stallsNext = true then
      ({ s with
        jobs := s.jobs.map (fun e => (e.1, e.2.older)), groups := s.groups.map Group.secondLater } : State).raise .seqStall
    else { s with jobs := s.jobs.map (fun e => (e.1, e.2.older)), groups := s.groups.map Group.secondLater } := by
  rw [State.countSecond, State.countStalls_eq _ (by decide), State.groupsLater_all]
  have hsome : (∃ g ∈ allGroups, (s.group g).stallsNext = true) ↔ ∃ g, (s.group g).stallsNext = true :=
    exists_congr fun g => and_iff_right (mem_allGroups g)
  simp only [← hsome]
  rfl

/-! ## The tick -/

/-- Settles O60: a tick notes the tenth for the counters, and a second at the groups is one for each of them. -/
theorem clockTicks : Obligations.ClockTicks := by
  intro s u
  refine ⟨fun hloading => ?_, fun hS hphase hcar hwithin => ?_, ?_⟩
  · exact congrArg Host.Outcome.next (if_pos hloading)
  · refine completes_of_gathered (x := tenthNoted) (exec_dispatchClockTick_counting hphase) ?_ rfl rfl
    rw [State.countTenth_of_stopped hS.scratch hcar, Clock.tick_within hwithin, if_neg (Nat.succ_ne_zero _)]
  · rintro hS hphase hcar hlast rfl
    have hexec := exec_dispatchClockTick_counting hphase
    have hsecond := State.countTenth_of_stopped hS.scratch hcar
    rw [Clock.tick_completes hlast, if_pos rfl, State.countSecond_eq] at hsecond
    refine ⟨fun hnone => ?_, fun hsome => ?_⟩
    · have hquiet : ¬ ∃ g, (s.group g).stallsNext = true := fun ⟨g, hg⟩ => Bool.false_ne_true ((hnone g).symm.trans hg)
      exact completes_of_gathered (x := tenthNoted) hexec (hsecond.trans (if_neg hquiet)) rfl rfl
    · exact completes_of_gathered (x := tenthNoted) hexec (hsecond.trans (if_pos hsome)) rfl rfl

end Sys2Proof.Machine
end
